-- ==== Sys2Proof/Word.lean ====
section
/-! DEFINITION. The word types of the block: what the spec treats as bits, at the widths of 00_scope.md R4. -/

namespace Sys2Proof

/-- A byte of the input buffer, a base address (`ADDR_W = 8`). Bit 0 is the least significant (R5). -/
abbrev Byte := BitVec 8

/-- A request or a response word (`REQ_W = RSP_W = 64`, R60, R63). -/
abbrev Word := BitVec 64

/-- The response payload `P` (`PAYLOAD_W = 48`, R63). -/
abbrev Payload := BitVec 48

/-- One sensor axis word (`WORD_W = 16`, R67). -/
abbrev AxisWord := BitVec 16

end Sys2Proof
end

