-- ==== Sys2Proof/Machine/State.lean ====
section
/-! DEFINITION. The state of the machine: the two ports the block has, and nothing else (10_state.md R20 to R24). -/

namespace Sys2Proof.Machine

/-- The block keeps no register, flag, counter or latch (R20 to R23): what can be seen of it is the value on its two
ports (R24). A step reads `req` and drives `rsp`; it never reads `rsp`. -/
structure State where
  /-- `REQ`, the input port; the caller drives it (R24, R60). -/
  req : Word
  /-- `RSP`, the output port (R24, R63). -/
  rsp : Word
  deriving DecidableEq, Repr

/-- Reasons the machine stops. There are none: "every request has a response", the block cannot hang, and an error is
a response the caller sees (R140, R145, R149), so no instruction and no word raises one. Log entry 3. -/
inductive Fault where
  deriving DecidableEq, Repr

/-- Reasons an instruction has no meaning in the model. -/
inductive Refusal where
  /-- An instruction whose meaning is not written; only an arm of `exec` could raise it, and none does. Safe. -/
  | notModelled (mnemonic : String)
  deriving DecidableEq, Repr

/-- The machine right after power-up. `RSP = rbd(REQ)` holds from the first moment (R161), whatever `REQ` carries;
the spec calls that value arbitrary. DESIGN CHOICE (log entry 2, unsafe): `REQ` is 0, which is `MAPRD CHIPID`, and
`RSP` is its response (`Sys2Proof.Laws.reset_rsp` proves it equal to `rbd`). -/
def State.reset : State where
  req := 0x0000000000000000
  rsp := 0x0000000001000000

end Sys2Proof.Machine
end

