-- ==== Sys2Proof/Syntax.lean ====
section
/-! DEFINITION. The instructions: one constructor per row of spec/opcode_table.json (30_encoding.md R70). -/

namespace Sys2Proof

/-- The byte lanes of a request, `buf[0]` first (`BUF_BYTES = 7`, R4, R60). -/
abbrev Buffer := Vector Byte 7

/-- The operations of R70 (`N_OPS = 5`, R4). -/
inductive Op where
  | maprd
  | dstat
  | dpmu
  | dint
  | dsmp
  deriving DecidableEq, Repr

/-- The four operations that decode a buffer (R11, R70): the ones that have a `NEED`. -/
inductive Decoder where
  | dstat
  | dpmu
  | dint
  | dsmp
  deriving DecidableEq, Repr

/-- The operation a decoder is (R70). -/
def Decoder.op : Decoder → Op
  | .dstat => .dstat
  | .dpmu => .dpmu
  | .dint => .dint
  | .dsmp => .dsmp

/-- A request that selects an operation. `grp` and `len` are the two names of `REQ.arg`, unsigned counts that are
only compared (R61). `lanes` of MAPRD are `REQ[63:8]`, which that operation ignores (R74 a): they are kept so that a
request word is the encoding of exactly one instruction. -/
inductive Instr where
  /-- MAPRD: look up the map entry of group `grp` (R90). -/
  | maprd (grp : Nat) (lanes : Buffer)
  /-- DSTAT: decode one status byte (R100). -/
  | dstat (len : Nat) (buf : Buffer)
  /-- DPMU: decode one power-mode byte (R110). -/
  | dpmu (len : Nat) (buf : Buffer)
  /-- DINT: decode three interrupt bytes (R120). -/
  | dint (len : Nat) (buf : Buffer)
  /-- DSMP: unpack six bytes into three signed words (R130). -/
  | dsmp (len : Nat) (buf : Buffer)
  deriving DecidableEq, Repr

/-- The operation an instruction performs. -/
def Instr.op : Instr → Op
  | .maprd _ _ => .maprd
  | .dstat _ _ => .dstat
  | .dpmu _ _ => .dpmu
  | .dint _ _ => .dint
  | .dsmp _ _ => .dsmp

/-- The value of the `arg` field: `grp` of MAPRD, `len` of a decoder (R61). -/
def Instr.arg : Instr → Nat
  | .maprd grp _ => grp
  | .dstat len _ => len
  | .dpmu len _ => len
  | .dint len _ => len
  | .dsmp len _ => len

/-- The byte lanes of the request (R60). -/
def Instr.lanes : Instr → Buffer
  | .maprd _ lanes => lanes
  | .dstat _ buf => buf
  | .dpmu _ buf => buf
  | .dint _ buf => buf
  | .dsmp _ buf => buf

/-- The instruction of operation `o` with this `arg` and these lanes. -/
def Instr.ofFields (o : Op) (arg : Nat) (lanes : Buffer) : Instr :=
  match o with
  | .maprd => .maprd arg lanes
  | .dstat => .dstat arg lanes
  | .dpmu => .dpmu arg lanes
  | .dint => .dint arg lanes
  | .dsmp => .dsmp arg lanes

end Sys2Proof
end

