-- ==== Sys2Proof/Machine/Values.lean ====
section
/-! DEFINITION. The typed values a transaction returns (00_scope.md R11) and the error causes (60_exceptions.md R141).
They are the values behind a payload, not state: nothing stores them (10_state.md R22). -/

namespace Sys2Proof.Machine

/-- The ten register groups, in the order of the map (10_state.md R25). -/
inductive GroupName where
  | chipid
  | errReg
  | pmuStatus
  | mag
  | gyr
  | acc
  | sensortime
  | status
  | intEn
  | cmd
  deriving DecidableEq, Repr

/-- A map entry: base address, byte span, bound decoder, write-only mark (R25, R68). -/
structure MapEntry where
  /-- Base address (`ADDR_W = 8`). -/
  base : Byte
  /-- Byte span (`SPAN_W = 4`). -/
  span : BitVec 4
  /-- The decoder bound to the group, none where the spec describes none. -/
  dec : Option Decoder
  /-- The group is a "write-only command register". -/
  wo : Bool
  deriving DecidableEq, Repr

/-- A row of the register map: a named entry (R25). -/
structure MapRow where
  name : GroupName
  entry : MapEntry
  deriving DecidableEq, Repr

/-- Seven independent flags (R11, R27). -/
structure Status where
  drdyAcc : Bool
  drdyGyr : Bool
  drdyMag : Bool
  nvmRdy : Bool
  focRdy : Bool
  magManOp : Bool
  gyrSelfTestOk : Bool
  deriving DecidableEq, Repr

/-- Modes of the accelerometer and of the magnetometer (R65). -/
inductive AccMagMode where
  | suspend
  | normal
  | lowPower
  deriving DecidableEq, Repr

/-- Modes of the gyroscope (R65). `reserved` is a named value, not an error (R28, U2). -/
inductive GyrMode where
  | suspend
  | normal
  | reserved
  | fastStartUp
  deriving DecidableEq, Repr

/-- Three modes, with the two marks that a mode came from the fallback (R11, R65). -/
structure PowerMode where
  accMode : AccMagMode
  gyrMode : GyrMode
  magMode : AccMagMode
  accFb : Bool
  magFb : Bool
  deriving DecidableEq, Repr

/-- Eighteen independent flags (R11, R29). They are data about the device, not interrupts of the block (R121). -/
structure Interrupts where
  anyMotionX : Bool
  anyMotionY : Bool
  anyMotionZ : Bool
  doubleTap : Bool
  singleTap : Bool
  orientation : Bool
  flat : Bool
  highGX : Bool
  highGY : Bool
  highGZ : Bool
  lowG : Bool
  dataReady : Bool
  fifoFull : Bool
  fifoWatermark : Bool
  noMotionX : Bool
  noMotionY : Bool
  noMotionZ : Bool
  stepDetector : Bool
  deriving DecidableEq, Repr

/-- Three 16-bit words, read as signed by `sint16` (R11, R67). -/
structure SensorSample where
  x : AxisWord
  y : AxisWord
  z : AxisWord
  deriving DecidableEq, Repr

/-- The value of a successful transaction (R11). -/
inductive Value where
  | mapEntry (e : MapEntry)
  | status (v : Status)
  | powerMode (v : PowerMode)
  | interrupts (v : Interrupts)
  | sample (v : SensorSample)
  deriving DecidableEq, Repr

/-- The error causes (R141). -/
inductive Cause where
  /-- The buffer is shorter than the decoder needs. -/
  | errLen
  /-- No operation is selected. -/
  | errOp
  /-- No such group. -/
  | errGrp
  deriving DecidableEq, Repr

/-- What a caller reads from a response word: a value, or a cause and the echoed `op` (R140, R142). -/
inductive Reply where
  | ok (v : Value)
  | err (kind : BitVec 3) (c : Cause)
  deriving DecidableEq, Repr

end Sys2Proof.Machine
end

