-- ==== Sys2Proof/Machine/Operands.lean ====
section
/-! DEFINITION. What a decoder takes from its request: how many bytes it needs (00_scope.md R4), 2-bit fields
(30_encoding.md R69) and axis words (20_memory.md R44). -/

namespace Sys2Proof.Machine

/-- `NEED(op)`: the bytes a decoder needs (R4). -/
def need : Decoder → Nat
  | .dstat => 1
  | .dpmu => 1
  | .dint => 3
  | .dsmp => 6

/-- A 2-bit field of a byte, its low bit at `lo`, unsigned and unextended (R69). -/
def field2 (b : Byte) (lo : Nat) : BitVec 2 := b.extractLsb' lo 2

/-- A little-endian pair: `low | (high << 8)`, in 16 bits (R44, R131). -/
def axisWord (low high : Byte) : AxisWord := low.setWidth 16 ||| (high.setWidth 16 <<< 8)

/-- `sint_16`: the two's-complement value, by subtracting 65536 from 32768 and above (R7, R132). -/
def sint16 (u : AxisWord) : Int := if u.toNat < 32768 then (u.toNat : Int) else (u.toNat : Int) - 65536

end Sys2Proof.Machine
end

