-- ==== Sys2Proof/Machine/Flags.lean ====
section
/-! DEFINITION. Every flag computation of the spec: each flag is one bit taken as it is, never inverted
(30_encoding.md R69). -/

namespace Sys2Proof.Machine

/-- The seven status flags of a status byte (10_state.md R27, 41_status_decoder.md R100). Bit 0 has no flag. -/
def statusFlags (b : Byte) : Status where
  drdyAcc := b.getLsbD 7
  drdyGyr := b.getLsbD 6
  drdyMag := b.getLsbD 5
  nvmRdy := b.getLsbD 4
  focRdy := b.getLsbD 3
  magManOp := b.getLsbD 2
  gyrSelfTestOk := b.getLsbD 1

/-- The eighteen interrupt flags of three bytes (10_state.md R29, 43_interrupt_decoder.md R120). Bit 3 of byte 0,
bit 7 of byte 1 and bits 7:4 of byte 2 have no flag. -/
def interruptFlags (b0 b1 b2 : Byte) : Interrupts where
  anyMotionX := b0.getLsbD 0
  anyMotionY := b0.getLsbD 1
  anyMotionZ := b0.getLsbD 2
  doubleTap := b0.getLsbD 4
  singleTap := b0.getLsbD 5
  orientation := b0.getLsbD 6
  flat := b0.getLsbD 7
  highGX := b1.getLsbD 0
  highGY := b1.getLsbD 1
  highGZ := b1.getLsbD 2
  lowG := b1.getLsbD 3
  dataReady := b1.getLsbD 4
  fifoFull := b1.getLsbD 5
  fifoWatermark := b1.getLsbD 6
  noMotionX := b2.getLsbD 0
  noMotionY := b2.getLsbD 1
  noMotionZ := b2.getLsbD 2
  stepDetector := b2.getLsbD 3

/-- The fallback flag of an accelerometer or magnetometer field: set exactly when its code is 11
(42_power_mode_decoder.md R110, decision D13). -/
def fallbackFlag (code : BitVec 2) : Bool := code == 0b11

end Sys2Proof.Machine
end

