-- ==== Sys2Proof/Config.lean ====
section
/-! DEFINITION. The counts of 00_scope.md R4 that the model is written over. The widths of R4 are in the types of
Word.lean and Decode.lean, `N_OPS` and `BUF_BYTES` in those of Syntax.lean; the register map and `NEED`, whose literals U7 calls unaudited, are in
Machine/RegisterMap.lean and Machine/Operands.lean. `OVERSIZE_ACCEPT` and `ERR_PAYLOAD_ZERO` have the one value R4
gives them, `true`: `guardLen` and `errPayload` say so. No value of this hardware is left free. -/

namespace Sys2Proof.Config

/-- `N_GROUPS`: register groups in the map (R4). -/
abbrev nGroups : Nat := 10

/-- `ARG_W`: width of the `arg` field in bits (R4, R60). -/
abbrev argW : Nat := 4

end Sys2Proof.Config
end

