-- ==== Sys2Proof/WellFormed.lean ====
section
/-! DEFINITION. Which instructions a request word can hold: `grp` and `len` fit the 4-bit `arg` field
(30_encoding.md R60, R61). Group indexes 10 to 15 and every `len` 0 to 15 are encodable and have an answer (R73, R75),
so they are well-formed; the lanes are seven bytes by their type. -/

namespace Sys2Proof

/-- A value fits the `arg` field. -/
def fitsArg (n : Nat) : Bool := decide (n < 2 ^ Config.argW)

/-- The instruction can be written as a request word. -/
def Instr.wellFormed : Instr → Bool
  | .maprd grp _ => fitsArg grp
  | .dstat len _ => fitsArg len
  | .dpmu len _ => fitsArg len
  | .dint len _ => fitsArg len
  | .dsmp len _ => fitsArg len

end Sys2Proof
end

