-- ==== Sys2Proof/Decode.lean ====
section
/-! DEFINITION. The fields of a request word (30_encoding.md R60, R61), the decoder, total on every word and refusing
by name (R70 to R72), and the encoder after it, written from the same tables. -/

namespace Sys2Proof

/-- `REQ.op = REQ[2:0]` (R60). -/
def reqOp (q : Word) : BitVec 3 := q.extractLsb' 0 3

/-- `REQ.arg = REQ[6:3]`, also called `len` and `grp` (R60, R61). -/
def reqArg (q : Word) : BitVec 4 := q.extractLsb' 3 4

/-- `REQ.rsv = REQ[7]` (R60). -/
def reqRsv (q : Word) : BitVec 1 := q.extractLsb' 7 1

/-- `buf[i] = REQ[8*i+15 : 8*i+8]` (R60). -/
def reqLane (q : Word) (i : Nat) : Byte := q.extractLsb' (8 * i + 8) 8

/-- The seven byte lanes, `buf[0]` first (R60). -/
def reqBuf (q : Word) : Buffer :=
  #v[reqLane q 0, reqLane q 1, reqLane q 2, reqLane q 3, reqLane q 4, reqLane q 5, reqLane q 6]

/-- The operation codes (R70). -/
def opCode : Op → BitVec 3
  | .maprd => 0b000
  | .dstat => 0b001
  | .dpmu => 0b010
  | .dint => 0b011
  | .dsmp => 0b100

/-- The operation a code selects; 5, 6 and 7 select nothing (R70, R71). -/
def opOfCode (c : BitVec 3) : Option Op :=
  match c.toNat with
  | 0 => some .maprd
  | 1 => some .dstat
  | 2 => some .dpmu
  | 3 => some .dint
  | 4 => some .dsmp
  | _ => none

/-- Why a request word selects no operation. Both are answered with ERR_OP (R71, R72). -/
inductive DecodeError where
  /-- `REQ[7] = 1` (R72). -/
  | reservedBitSet
  /-- `REQ.op` is 5, 6 or 7 (R71). -/
  | illegalOp (code : BitVec 3)
  deriving DecidableEq, Repr

/-- The instruction a request word holds, or the name of what is wrong with it (R60, R70 to R72). -/
def decode (q : Word) : Except DecodeError Instr :=
  if reqRsv q = 1 then .error .reservedBitSet
  else
    match opOfCode (reqOp q) with
    | none => .error (.illegalOp (reqOp q))
    | some o => .ok (Instr.ofFields o (reqArg q).toNat (reqBuf q))

/-- A request word from its fields (R60). -/
def packRequest (op : BitVec 3) (arg : BitVec 4) (rsv : BitVec 1) (buf : Buffer) : Word :=
  buf[6] ++ buf[5] ++ buf[4] ++ buf[3] ++ buf[2] ++ buf[1] ++ buf[0] ++ rsv ++ arg ++ op

/-- The request word of a well-formed instruction (R60, R70): every instruction is one word (R76). -/
def encode (i : Instr) : Word :=
  packRequest (opCode i.op) (BitVec.ofNat 4 i.arg) 0 i.lanes

/-- `mask` of the opcode table: the bits of the control byte that select an operation (R70). -/
def selectMask : Word := 0x87

/-- `match` of the opcode table: the code in bits 2:0, bit 7 clear (R70). -/
def selectMatch (o : Op) : Word := (opCode o).setWidth 64

/-- The request word whose low `nbits` bits are those of `w`, every bit above them 0. -/
def tableRequest (nbits w : Nat) : Word := BitVec.ofNat 64 (w % 2 ^ nbits)

/-- The instruction the decoder reads from a table word. A request is one 64-bit word (R76), so a longer one is
none. The block has no memory to lay the word out in: its bits are the wires of `REQ` (R45, R60). -/
def decodeTableWord (nbits w : Nat) : Option Instr :=
  if nbits ≤ 64 then (decode (tableRequest nbits w)).toOption else none

end Sys2Proof
end

