-- ==== Sys2Proof/Machine/Payload.lean ====
section
/-! DEFINITION. The wire form of each typed value (30_encoding.md R64 to R68) and how a caller reads it back. Every
payload bit a format does not name is 0 (R63). -/

namespace Sys2Proof.Machine

/-- A payload of flags: flag `k` of the list at `P[k]`, every bit above them 0 (R64, R66, decision D11). -/
def flagsPayload (flags : List Bool) : Payload := (BitVec.ofBoolListLE flags).setWidth 48

/-- The seven flags in the document's order (R64). -/
def Status.flags (v : Status) : List Bool :=
  [v.drdyAcc, v.drdyGyr, v.drdyMag, v.nvmRdy, v.focRdy, v.magManOp, v.gyrSelfTestOk]

/-- Payload of DSTAT (R64). -/
def Status.payload (v : Status) : Payload := flagsPayload v.flags

/-- The status a DSTAT payload carries (R64). -/
def Status.ofPayload (p : Payload) : Status where
  drdyAcc := p.getLsbD 0
  drdyGyr := p.getLsbD 1
  drdyMag := p.getLsbD 2
  nvmRdy := p.getLsbD 3
  focRdy := p.getLsbD 4
  magManOp := p.getLsbD 5
  gyrSelfTestOk := p.getLsbD 6

/-- Output codes of the accelerometer and magnetometer modes; 0b11 is never produced (R65, decision D12). -/
def AccMagMode.code : AccMagMode → BitVec 2
  | .suspend => 0b00
  | .normal => 0b01
  | .lowPower => 0b10

/-- The mode an output code names; none for 0b11 (R65). -/
def AccMagMode.ofCode (c : BitVec 2) : Option AccMagMode :=
  match c.toNat with
  | 0 => some .suspend
  | 1 => some .normal
  | 2 => some .lowPower
  | _ => none

/-- Output codes of the gyroscope modes (R65, decision D12). -/
def GyrMode.code : GyrMode → BitVec 2
  | .suspend => 0b00
  | .normal => 0b01
  | .reserved => 0b10
  | .fastStartUp => 0b11

/-- The gyroscope mode an output code names (R65). -/
def GyrMode.ofCode (c : BitVec 2) : GyrMode :=
  match c.toNat with
  | 0 => .suspend
  | 1 => .normal
  | 2 => .reserved
  | _ => .fastStartUp

/-- Payload of DPMU: `acc_mode` 1:0, `gyr_mode` 3:2, `mag_mode` 5:4, `acc_fb` 6, `mag_fb` 7 (R65). -/
def PowerMode.payload (v : PowerMode) : Payload :=
  0#40 ++ BitVec.ofBool v.magFb ++ BitVec.ofBool v.accFb ++ v.magMode.code ++ v.gyrMode.code ++ v.accMode.code

/-- The power modes a DPMU payload carries (R65); none where a field holds the code 0b11 that is never produced. -/
def PowerMode.ofPayload (p : Payload) : Option PowerMode :=
  match AccMagMode.ofCode (p.extractLsb' 0 2), AccMagMode.ofCode (p.extractLsb' 4 2) with
  | some acc, some mag =>
    some { accMode := acc, gyrMode := GyrMode.ofCode (p.extractLsb' 2 2), magMode := mag,
           accFb := p.getLsbD 6, magFb := p.getLsbD 7 }
  | _, _ => none

/-- The eighteen flags in the document's order (R66). -/
def Interrupts.flags (v : Interrupts) : List Bool :=
  [v.anyMotionX, v.anyMotionY, v.anyMotionZ, v.doubleTap, v.singleTap, v.orientation, v.flat,
   v.highGX, v.highGY, v.highGZ, v.lowG, v.dataReady, v.fifoFull, v.fifoWatermark,
   v.noMotionX, v.noMotionY, v.noMotionZ, v.stepDetector]

/-- Payload of DINT (R66). -/
def Interrupts.payload (v : Interrupts) : Payload := flagsPayload v.flags

/-- The flags a DINT payload carries (R66). -/
def Interrupts.ofPayload (p : Payload) : Interrupts where
  anyMotionX := p.getLsbD 0
  anyMotionY := p.getLsbD 1
  anyMotionZ := p.getLsbD 2
  doubleTap := p.getLsbD 3
  singleTap := p.getLsbD 4
  orientation := p.getLsbD 5
  flat := p.getLsbD 6
  highGX := p.getLsbD 7
  highGY := p.getLsbD 8
  highGZ := p.getLsbD 9
  lowG := p.getLsbD 10
  dataReady := p.getLsbD 11
  fifoFull := p.getLsbD 12
  fifoWatermark := p.getLsbD 13
  noMotionX := p.getLsbD 14
  noMotionY := p.getLsbD 15
  noMotionZ := p.getLsbD 16
  stepDetector := p.getLsbD 17

/-- Payload of DSMP: `x` 15:0, `y` 31:16, `z` 47:32 (R67). -/
def SensorSample.payload (v : SensorSample) : Payload := v.z ++ v.y ++ v.x

/-- The sample a DSMP payload carries (R67). -/
def SensorSample.ofPayload (p : Payload) : SensorSample where
  x := p.extractLsb' 0 16
  y := p.extractLsb' 16 16
  z := p.extractLsb' 32 16

/-- The `dec` field: the `op` code of the bound decoder, 0 for none (R68). -/
def decCode : Option Decoder → BitVec 3
  | none => 0
  | some d => opCode d.op

/-- What a `dec` field names: no decoder, a decoder, or (outer none) a code that binds nothing (R68). -/
def decOfCode (c : BitVec 3) : Option (Option Decoder) :=
  match c.toNat with
  | 0 => some none
  | 1 => some (some .dstat)
  | 2 => some (some .dpmu)
  | 3 => some (some .dint)
  | 4 => some (some .dsmp)
  | _ => none

/-- Payload of MAPRD: `base` 7:0, `span` 11:8, `dec` 14:12, `wo` 15 (R68). -/
def MapEntry.payload (e : MapEntry) : Payload :=
  0#32 ++ BitVec.ofBool e.wo ++ decCode e.dec ++ e.span ++ e.base

/-- The map entry a MAPRD payload carries (R68). -/
def MapEntry.ofPayload (p : Payload) : Option MapEntry :=
  (decOfCode (p.extractLsb' 12 3)).map fun d =>
    { base := p.extractLsb' 0 8, span := p.extractLsb' 8 4, dec := d, wo := p.getLsbD 15 }

/-- The operation that returns a value of this type: the `kind` of its response (R11, R63). -/
def Value.op : Value → Op
  | .mapEntry _ => .maprd
  | .status _ => .dstat
  | .powerMode _ => .dpmu
  | .interrupts _ => .dint
  | .sample _ => .dsmp

/-- The wire form of a value (R64 to R68). -/
def Value.payload : Value → Payload
  | .mapEntry e => e.payload
  | .status v => v.payload
  | .powerMode v => v.payload
  | .interrupts v => v.payload
  | .sample v => v.payload

/-- The value a payload carries under the format that `kind` selects (R63 to R68). -/
def Value.ofPayload (kind : BitVec 3) (p : Payload) : Option Value :=
  match opOfCode kind with
  | some .maprd => (MapEntry.ofPayload p).map .mapEntry
  | some .dstat => some (.status (Status.ofPayload p))
  | some .dpmu => (PowerMode.ofPayload p).map .powerMode
  | some .dint => some (.interrupts (Interrupts.ofPayload p))
  | some .dsmp => some (.sample (SensorSample.ofPayload p))
  | none => none

end Sys2Proof.Machine
end

