-- ==== Sys2Proof/Machine/Ops.lean ====
section
/-! DEFINITION. The named operations every meaning is written over: the response word (30_encoding.md R63), presenting
a request, answering with a value, raising an error (60_exceptions.md R145) and the length check (20_memory.md R48).
There is no return from an error beside `raise`: "there is nothing to return from and nothing to clear" (R146). -/

namespace Sys2Proof.Machine

/-- The outcome of a step of this machine. -/
abbrev Result := Host.Outcome State Fault Refusal

/-- A response word from its fields; bits 15:6 are 0 (R63). -/
def packResponse (p : Payload) (kind : BitVec 3) (cause : BitVec 2) (err : BitVec 1) : Word :=
  p ++ 0#10 ++ kind ++ cause ++ err

/-- `RSP.err` (R63). -/
def rspErr (r : Word) : BitVec 1 := r.extractLsb' 0 1

/-- `RSP.cause` (R63). -/
def rspCause (r : Word) : BitVec 2 := r.extractLsb' 1 2

/-- `RSP.kind` (R63). -/
def rspKind (r : Word) : BitVec 3 := r.extractLsb' 3 3

/-- `RSP[15:6]`, always 0 (R63). -/
def rspZero (r : Word) : BitVec 10 := r.extractLsb' 6 10

/-- `P = RSP[63:16]` (R63). -/
def rspPayload (r : Word) : Payload := r.extractLsb' 16 48

/-- The cause codes (R141, decision D8). -/
def causeCode : Cause → BitVec 2
  | .errLen => 1
  | .errOp => 2
  | .errGrp => 3

/-- The cause a code names; 0 is success and names none (R141). -/
def causeOfCode (c : BitVec 2) : Option Cause :=
  match c.toNat with
  | 1 => some .errLen
  | 2 => some .errOp
  | 3 => some .errGrp
  | _ => none

/-- The payload of an error response: `ERR_PAYLOAD_ZERO` (R4, R142). -/
def errPayload : Payload := 0

/-- The success response `{P, 0b0000000000, op, 0b00, 0b0}` (R63). -/
def successResponse (o : Op) (p : Payload) : Word := packResponse p (opCode o) 0 0

/-- The error response `{48 zeros, 0b0000000000, op, cause, 0b1}` (R63, R145). -/
def errorResponse (kind : BitVec 3) (c : Cause) : Word := packResponse errPayload kind (causeCode c) 1

/-- The caller drives `REQ` (00_scope.md R10, 10_state.md R24). -/
def State.present (s : State) (q : Word) : State := { s with req := q }

/-- The block drives `RSP`; nothing else changes (R20, R24). -/
def State.respond (s : State) (r : Word) : State := { s with rsp := r }

/-- `return P`: the response of a successful operation (00_scope.md R8, R63). -/
def succeed (o : Op) (p : Payload) (s : State) : Result := .next (s.respond (successResponse o p))

/-- `raise <Error>`: the block's whole "trap entry" (R145). The operation ends and the response is the error
response; nothing is saved, no mode changes, control goes nowhere, and the machine goes on (R146). -/
def raise (kind : BitVec 3) (c : Cause) (s : State) : Result := .next (s.respond (errorResponse kind c))

/-- `check_len(op)` and then the rest of the decoder (R48). A buffer longer than `NEED` is accepted
(`OVERSIZE_ACCEPT`, R4, R75, decision D6). -/
def guardLen (d : Decoder) (len : Nat) (s : State) (body : Result) : Result :=
  if len < need d then raise (opCode d.op) .errLen s else body

/-- The response word that carries a reply (R63). -/
def Reply.word : Reply → Word
  | .ok v => successResponse v.op v.payload
  | .err kind c => errorResponse kind c

/-- What the fields of a word say, `err` first (R63, 70_reset_and_hazards.md R168): the value of `P` under the format
of `kind`, or the cause. -/
def readFields (r : Word) : Option Reply :=
  if rspErr r = 0 then (Value.ofPayload (rspKind r) (rspPayload r)).map .ok
  else (causeOfCode (rspCause r)).map (.err (rspKind r))

/-- What a caller reads from a response word (R11, R63 to R68, R168). DESIGN CHOICE (log entry 10, safe): the spec says
nothing of a word the block never sends. Here a word that is not, bit for bit, the success response of a value or the
error response of a cause gives none: `err` 0 with a `cause`, a bit of 15:6, an unnamed payload bit, an error with a
payload, a code that names nothing. A word that is such a response gives its reply whether or not the block ever sends
it: a map entry that is not in the map, a cause that its `kind` never has. -/
def readReply (r : Word) : Option Reply := (readFields r).filter fun x => x.word = r

end Sys2Proof.Machine
end

