-- ==== Sys2Proof/Machine/InterruptDecoder.lean ====
section
/-! DEFINITION. DINT, the interrupt decoder (43_interrupt_decoder.md R120, R121). -/

namespace Sys2Proof.Machine

/-- DINT (R120): three bytes into eighteen flags; ERR_LEN when `len` is 0, 1 or 2, with no partial decoding. -/
def execDint (len : Nat) (buf : Buffer) (s : State) : Result :=
  guardLen .dint len s (succeed .dint (interruptFlags buf[0] buf[1] buf[2]).payload s)

end Sys2Proof.Machine
end

