-- ==== Sys2Proof/Machine/PowerModeDecoder.lean ====
section
/-! DEFINITION. DPMU, the power-mode decoder (42_power_mode_decoder.md R110). -/

namespace Sys2Proof.Machine

/-- `accmag(c)`: code 11 falls back to Normal (R110, 90_conflicts.md C2). -/
def accMagMode (c : BitVec 2) : AccMagMode :=
  match c.toNat with
  | 0 => .suspend
  | 1 => .normal
  | 2 => .lowPower
  | _ => .normal

/-- `gyr(c)` (R110). -/
def gyrMode (c : BitVec 2) : GyrMode :=
  match c.toNat with
  | 0 => .suspend
  | 1 => .normal
  | 2 => .reserved
  | _ => .fastStartUp

/-- The power modes of a power-mode byte: accelerometer 5:4, gyroscope 3:2, magnetometer 1:0; bits 7:6 have no field
(10_state.md R28, R110). -/
def powerMode (b : Byte) : PowerMode where
  accMode := accMagMode (field2 b 4)
  gyrMode := gyrMode (field2 b 2)
  magMode := accMagMode (field2 b 0)
  accFb := fallbackFlag (field2 b 4)
  magFb := fallbackFlag (field2 b 0)

/-- DPMU (R110): one power-mode byte into three modes; ERR_LEN when `len = 0` (90_conflicts.md C4). -/
def execDpmu (len : Nat) (buf : Buffer) (s : State) : Result :=
  guardLen .dpmu len s (succeed .dpmu (powerMode buf[0]).payload s)

end Sys2Proof.Machine
end

