-- ==== Sys2Proof/Machine/RegisterMap.lean ====
section
/-! DEFINITION. The register map constant (10_state.md R25) and MAPRD, its lookup (40_register_map.md R90). -/

namespace Sys2Proof.Machine

/-- `ROM`: the register map, index `g` in the order of the document's table (R25). A constant: no operation and no
reset changes it (R160). The `dec` and `wo` columns are the spec's decision D16; span 7 of MAG is kept
(90_conflicts.md C1). -/
def rom : Vector MapRow Config.nGroups :=
  #v[{ name := .chipid, entry := { base := 0x00, span := 1, dec := none, wo := false } },
     { name := .errReg, entry := { base := 0x02, span := 1, dec := none, wo := false } },
     { name := .pmuStatus, entry := { base := 0x03, span := 1, dec := some .dpmu, wo := false } },
     { name := .mag, entry := { base := 0x04, span := 7, dec := some .dsmp, wo := false } },
     { name := .gyr, entry := { base := 0x0C, span := 6, dec := some .dsmp, wo := false } },
     { name := .acc, entry := { base := 0x12, span := 6, dec := some .dsmp, wo := false } },
     { name := .sensortime, entry := { base := 0x18, span := 3, dec := none, wo := false } },
     { name := .status, entry := { base := 0x1B, span := 1, dec := some .dstat, wo := false } },
     { name := .intEn, entry := { base := 0x50, span := 3, dec := some .dint, wo := false } },
     { name := .cmd, entry := { base := 0x7E, span := 1, dec := none, wo := true } }]

/-- `ROM[grp]`; none for an index that names no group (R73, R90). -/
def lookup (grp : Nat) : Option MapEntry := rom[grp]?.map MapRow.entry

/-- MAPRD (R90): ERR_GRP for an index above 9, else the map entry. No buffer byte is an operand. -/
def execMaprd (grp : Nat) (s : State) : Result :=
  match lookup grp with
  | none => raise (opCode .maprd) .errGrp s
  | some e => succeed .maprd e.payload s

end Sys2Proof.Machine
end

