-- ==== Sys2Proof/Machine/SampleDecoder.lean ====
section
/-! DEFINITION. DSMP, the sensor sample decoder (44_sensor_sample_decoder.md R130). -/

namespace Sys2Proof.Machine

/-- The three axis words of a buffer: bytes [0,1] to x, [2,3] to y, [4,5] to z; `buf[6]` is ignored (R30, R130). -/
def sensorSample (buf : Buffer) : SensorSample where
  x := axisWord buf[0] buf[1]
  y := axisWord buf[2] buf[3]
  z := axisWord buf[4] buf[5]

/-- DSMP (R130): six bytes into three signed words; ERR_LEN when `len` is 0 to 5. -/
def execDsmp (len : Nat) (buf : Buffer) (s : State) : Result :=
  guardLen .dsmp len s (succeed .dsmp (sensorSample buf).payload s)

end Sys2Proof.Machine
end

