-- ==== Sys2Proof/Machine/StatusDecoder.lean ====
section
/-! DEFINITION. DSTAT, the status decoder (41_status_decoder.md R100). -/

namespace Sys2Proof.Machine

/-- DSTAT (R100): one status byte into seven flags; ERR_LEN when `len = 0` (90_conflicts.md C4). -/
def execDstat (len : Nat) (buf : Buffer) (s : State) : Result :=
  guardLen .dstat len s (succeed .dstat (statusFlags buf[0]).payload s)

end Sys2Proof.Machine
end

