-- ==== Sys2Proof/Machine/Dispatch.lean ====
section
/-! DEFINITION. One arm per instruction, each one call of its meaning. -/

namespace Sys2Proof.Machine

def exec (i : Instr) (s : State) : Host.Outcome State Fault Refusal :=
  match i with
  | .maprd grp _ => Sys2Proof.Machine.execMaprd grp s
  | .dstat len buf => Sys2Proof.Machine.execDstat len buf s
  | .dpmu len buf => Sys2Proof.Machine.execDpmu len buf s
  | .dint len buf => Sys2Proof.Machine.execDint len buf s
  | .dsmp len buf => Sys2Proof.Machine.execDsmp len buf s

end Sys2Proof.Machine
end

