-- ==== Sys2Proof/Machine/Reject.lean ====
section
/-! DEFINITION. The answer to a request that selects no operation (30_encoding.md R71, R72). -/

namespace Sys2Proof.Machine

/-- ERR_OP, with `kind` the `op` field of the request, whatever was wrong with it (R71, R72, R144). -/
def execRejected (e : DecodeError) (s : State) : Result :=
  match e with
  | .reservedBitSet => raise (reqOp s.req) .errOp s
  | .illegalOp code => raise code .errOp s

end Sys2Proof.Machine
end

