-- ==== Sys2Proof/Machine/Step.lean ====
section
/-! DEFINITION. One step is one transaction (00_scope.md R10, 70_reset_and_hazards.md R170). -/

namespace Sys2Proof.Machine

/-- One transaction: the request on `REQ` is decoded and answered on `RSP`; `REQ` stays as the caller drives it
(R10, R144, R169). There is no program counter to advance (R21). -/
def step (s : State) : Host.Outcome State Fault Refusal :=
  match decode s.req with
  | .ok i => exec i s
  | .error e => execRejected e s

/-- `s` with that request on `REQ`, where the next step takes it from (log entry 1). -/
def State.withFetchWord (s : State) (nbits w : Nat) : State := s.present (tableRequest nbits w)

end Sys2Proof.Machine
end

