-- ==== Sys2Proof/Machine/Caller.lean ====
section
/-! DEFINITION. The caller's side of a transaction: the textual form of a request and its canonical encoding
(30_encoding.md R77, R78), the transport's service (20_memory.md R43) and how a caller makes a request of a read
(40_register_map.md R91, 70_reset_and_hazards.md R164 to R167). None of it is in State and no step uses it: the claims
about the device take it as their premise (93_implementation_defined.md U4). -/

namespace Sys2Proof.Machine

/-- The index of a group in the map (10_state.md R25). -/
def GroupName.index : GroupName → Nat
  | .chipid => 0
  | .errReg => 1
  | .pmuStatus => 2
  | .mag => 3
  | .gyr => 4
  | .acc => 5
  | .sensortime => 6
  | .status => 7
  | .intEn => 8
  | .cmd => 9

/-- How a text names a group: by name or by an index 0 to 15 (R77). -/
inductive GroupRef where
  | name (g : GroupName)
  | index (n : Nat)
  deriving DecidableEq, Repr

/-- The `grp` of a group reference. -/
def GroupRef.grp : GroupRef → Nat
  | .name g => g.index
  | .index n => n

/-- The textual form of a request: a group, or a list of the bytes of the caller's buffer (R77). -/
inductive TextRequest where
  | maprd (group : GroupRef)
  | dstat (bytes : List Byte)
  | dpmu (bytes : List Byte)
  | dint (bytes : List Byte)
  | dsmp (bytes : List Byte)
  deriving DecidableEq, Repr

/-- A text holds an index 0 to 15, or up to 15 bytes (R77). -/
def TextRequest.wellFormed : TextRequest → Bool
  | .maprd group => fitsArg group.grp
  | .dstat bytes => fitsArg bytes.length
  | .dpmu bytes => fitsArg bytes.length
  | .dint bytes => fitsArg bytes.length
  | .dsmp bytes => fitsArg bytes.length

/-- The first seven listed bytes in `buf[0]` to `buf[6]`, zero in every lane not listed (R77). -/
def canonicalBuffer (bytes : List Byte) : Buffer :=
  #v[bytes.getD 0 0, bytes.getD 1 0, bytes.getD 2 0, bytes.getD 3 0, bytes.getD 4 0, bytes.getD 5 0, bytes.getD 6 0]

/-- The instruction of decoder `d` on the buffer `bytes`; `len` is the number of bytes, saturated at 15 (R77, R165). -/
def decodeRequest (d : Decoder) (bytes : List Byte) : Instr :=
  Instr.ofFields d.op (min bytes.length 15) (canonicalBuffer bytes)

/-- The canonical instruction of a text (R77). -/
def TextRequest.assemble : TextRequest → Instr
  | .maprd group => .maprd group.grp (canonicalBuffer [])
  | .dstat bytes => decodeRequest .dstat bytes
  | .dpmu bytes => decodeRequest .dpmu bytes
  | .dint bytes => decodeRequest .dint bytes
  | .dsmp bytes => decodeRequest .dsmp bytes

/-- The document's `decode_status(b)` (R78). -/
def decodeStatus (b : Byte) : TextRequest := .dstat [b]

/-- The document's `decode_power_mode(b)` (R78). -/
def decodePowerMode (b : Byte) : TextRequest := .dpmu [b]

/-- The document's `decode_interrupts([b0, b1, b2])` (R78). -/
def decodeInterrupts (b0 b1 b2 : Byte) : TextRequest := .dint [b0, b1, b2]

/-- The document's `decode_sensor_sample([b0, ..., b5])` (R78). -/
def decodeSensorSample (b0 b1 b2 b3 b4 b5 : Byte) : TextRequest := .dsmp [b0, b1, b2, b3, b4, b5]

/-- How a transport read fails (R43). -/
inductive TransportError where
  | notAcknowledged
  | timeout
  | arbitrationLoss
  deriving DecidableEq, Repr

/-- `MemRead(addr, n)`: that many consecutive bytes starting at that address, of a device whose register at address
`a` reads as `dev a` (R8, R43). -/
def memRead (dev : Nat → Byte) (base : Byte) (n : Nat) : List Byte :=
  (List.range n).map fun i => dev (base.toNat + i)

/-- One complete read of a group: `span` bytes from its `base` (R91, R164). None where the map has no entry. -/
def readGroup (dev : Nat → Byte) (g : GroupName) : List Byte :=
  match lookup g.index with
  | some e => memRead dev e.base e.span.toNat
  | none => []

/-- The request a caller makes of a read of group `g`: the bytes go to the group's bound decoder (R91, R166). None
for a group without a decoder (R31), and none when the read failed: "when a read fails the caller has no buffer and
issues no decode request for that read" (60_exceptions.md R148). -/
def pollRequest (g : GroupName) (read : Except TransportError (List Byte)) : Option Word :=
  match read, (lookup g.index).bind MapEntry.dec with
  | .ok bytes, some d => some (encode (decodeRequest d bytes))
  | .ok _, none => none
  | .error _, _ => none

end Sys2Proof.Machine
end

