-- ==== Sys2Proof/Machine/Reference.lean ====
section
/-! DEFINITION. The block as one function on wires: `RSP = rbd(REQ)` (00_scope.md R10), the top-level function of
60_exceptions.md R144 with the wire form that each operation rule gives beside its pseudocode. It uses no definition
of the decoder or of the meanings, and no meaning uses it: the claims compare the two. -/

namespace Sys2Proof.Machine

/-- R100 in one line: `P[k] = b[7-k]` for `k` in 0 to 6, `b = REQ[15:8]`. -/
def wireStatus (q : Word) : Payload :=
  0#41 ++ q.extractLsb' 9 1 ++ q.extractLsb' 10 1 ++ q.extractLsb' 11 1 ++ q.extractLsb' 12 1 ++
    q.extractLsb' 13 1 ++ q.extractLsb' 14 1 ++ q.extractLsb' 15 1

/-- `(c = 3) ? 1 : c`, the wire form of an accelerometer or magnetometer code (R110). -/
def wireAccMag (c : BitVec 2) : BitVec 2 := if c = 3 then 1 else c

/-- The wire form of R110, `b = REQ[15:8]`: `P[7] = b[1] & b[0]`, `P[6] = b[5] & b[4]`, then the three codes. -/
def wirePower (q : Word) : Payload :=
  0#40 ++ (q.extractLsb' 9 1 &&& q.extractLsb' 8 1) ++ (q.extractLsb' 13 1 &&& q.extractLsb' 12 1) ++
    wireAccMag (q.extractLsb' 8 2) ++ q.extractLsb' 10 2 ++ wireAccMag (q.extractLsb' 12 2)

/-- R120 as vectors: `P[17:14] = buf[2][3:0]`, `P[13:7] = buf[1][6:0]`, `P[6:3] = buf[0][7:4]`,
`P[2:0] = buf[0][2:0]`. -/
def wireInterrupts (q : Word) : Payload :=
  0#30 ++ q.extractLsb' 24 4 ++ q.extractLsb' 16 7 ++ q.extractLsb' 12 4 ++ q.extractLsb' 8 3

/-- R130 on the wires: `P = REQ[55:8]`. -/
def wireSample (q : Word) : Payload := q.extractLsb' 8 48

/-- The ten results of R90, "the whole content of the map", by `grp`. -/
def wireMap : List Payload :=
  [0x0100, 0x0102, 0x2103, 0x4704, 0x460C, 0x4612, 0x0318, 0x111B, 0x3350, 0x817E]

/-- `NEED` by operation code (00_scope.md R4); MAPRD has none. -/
def wireNeed : List Nat := [0, 1, 1, 3, 6]

/-- The success response `{P, 0b0000000000, op, 0b00, 0b0}` (30_encoding.md R63). -/
def wireOk (op : BitVec 3) (p : Payload) : Word := p ++ 0#10 ++ op ++ 0#2 ++ 0#1

/-- The error response `{48 zeros, 10 zeros, REQ.op, C, 1}` (R145). -/
def wireErr (op : BitVec 3) (cause : BitVec 2) : Word := 0#48 ++ 0#10 ++ op ++ cause ++ 1#1

/-- The whole block (R144): ERR_OP first, then ERR_GRP for MAPRD or ERR_LEN for a decoder, then the payload. -/
def rbd (q : Word) : Word :=
  let op := q.extractLsb' 0 3
  let arg := (q.extractLsb' 3 4).toNat
  if q.getLsbD 7 = true ∨ 4 < op.toNat then wireErr op 2
  else if op = 0 then
    if 9 < arg then wireErr op 3 else wireOk op (wireMap.getD arg 0)
  else if arg < wireNeed.getD op.toNat 0 then wireErr op 1
  else if op = 1 then wireOk op (wireStatus q)
  else if op = 2 then wireOk op (wirePower q)
  else if op = 3 then wireOk op (wireInterrupts q)
  else wireOk op (wireSample q)

end Sys2Proof.Machine
end

