-- ==== Sys2Proof/Safety.lean ====
section
/-! DEFINITION. The words the claims use: what a response word says, bit by bit (30_encoding.md R63), when the two
ports agree (70_reset_and_hazards.md R161) and what a caller sees of a run of transactions (20_memory.md R50). -/

namespace Sys2Proof.Machine

/-- The low 16 bits of a success response of operation code `kind`: `err` 0, `cause` 0, `kind`, ten zeros (R63). -/
def IsSuccess (kind : BitVec 3) (r : Word) : Prop :=
  r.getLsbD 0 = false ∧ r.extractLsb' 1 2 = 0 ∧ r.extractLsb' 3 3 = kind ∧ r.extractLsb' 6 10 = 0

/-- An error response: `err` 1, this cause code and `kind`, every other bit 0 (R63, R145). -/
def IsError (kind : BitVec 3) (cause : BitVec 2) (r : Word) : Prop :=
  r.getLsbD 0 = true ∧ r.extractLsb' 1 2 = cause ∧ r.extractLsb' 3 3 = kind ∧ r.extractLsb' 6 58 = 0

/-- `RSP` is the function `rbd` of the present value of `REQ` (R24, R161). -/
def Settled (s : State) : Prop := s.rsp = rbd s.req

/-- The response of a step, none if it stopped. -/
def response (s : State) : Option Word :=
  match step s with
  | .next t => some t.rsp
  | .fault _ => none
  | .refused _ => none

/-- The responses to a sequence of transactions: the caller presents each request and reads its response before it
presents the next (R10, R169). None if a step stopped. -/
def serve (s : State) : List Word → Option (List Word)
  | [] => some []
  | q :: rest =>
    match step (s.present q) with
    | .next t => (serve t rest).map (t.rsp :: ·)
    | .fault _ => none
    | .refused _ => none

end Sys2Proof.Machine
end

