-- ==== Sys2Proof/Certificates/Slice0/Obligations.lean ====
section
/-! DEFINITION. The statements for the provers. Each docstring names the rule of spec/ it formalises; a rule marked
`[decision ...]` there is the spec's own decision D<n>, named here, and a rule marked `[derived ...]` is the spec's own
inference. -/

open Sys2Proof Sys2Proof.Machine

/-! ### Encoding -/

/-- R60, R61, R70: no field of a request is dropped. -/
def Obligations.DecodeOfEncodeIsTheInstruction : Prop :=
  ∀ i : Instr, i.wellFormed = true → decode (encode i) = .ok i

/-- R60, R61, R70: no bit of a request word is dropped, those of R74 that no operation reads included. -/
def Obligations.EncodeOfDecodeIsTheWord : Prop :=
  ∀ (q : Word) (i : Instr), decode q = .ok i → i.wellFormed = true ∧ encode i = q

/-- R60 and R61 (decisions D2, D5): where the decoder takes each field from, bit by bit. -/
def Obligations.DecodedFieldsAreTheBitsOfTheFormat : Prop :=
  ∀ (q : Word) (i : Instr), decode q = .ok i →
    (∀ j, j < 3 → (opCode i.op).getLsbD j = q.getLsbD j) ∧
    i.arg = (q.toNat / 8) % 16 ∧ q.getLsbD 7 = false ∧
    ∀ k (hk : k < 7), ∀ j, j < 8 → (i.lanes[k]).getLsbD j = q.getLsbD (8 * k + 8 + j)

/-- R70 (decision D4): mask 0x87 and match `op` select the operation, exactly. -/
def Obligations.MaskAndMatchSelectTheOperation : Prop :=
  ∀ q : Word,
    (q &&& 0x87#64 = 0#64 ↔ ∃ grp lanes, decode q = .ok (.maprd grp lanes)) ∧
    (q &&& 0x87#64 = 1#64 ↔ ∃ len buf, decode q = .ok (.dstat len buf)) ∧
    (q &&& 0x87#64 = 2#64 ↔ ∃ len buf, decode q = .ok (.dpmu len buf)) ∧
    (q &&& 0x87#64 = 3#64 ↔ ∃ len buf, decode q = .ok (.dint len buf)) ∧
    (q &&& 0x87#64 = 4#64 ↔ ∃ len buf, decode q = .ok (.dsmp len buf))

/-- Words written out from the bit table of R60, one per operation, and two that select nothing (R71, R72). -/
def Obligations.SpelledOutWordsDecode : Prop :=
  decode 0b00000000_00000000_00000000_00000000_00000000_00000000_00000000_0_0101_000#64
    = .ok (.maprd 5 #v[0, 0, 0, 0, 0, 0, 0]) ∧
  decode 0b00000000_00000000_00000000_00000000_00000000_00000000_10000000_0_0001_001#64
    = .ok (.dstat 1 #v[0x80, 0, 0, 0, 0, 0, 0]) ∧
  decode 0b00000000_00000000_00000000_00000000_00000000_00000000_00010101_0_0001_010#64
    = .ok (.dpmu 1 #v[0x15, 0, 0, 0, 0, 0, 0]) ∧
  decode 0b00000000_00000000_00000000_00000000_00001010_00010010_00100101_0_0011_011#64
    = .ok (.dint 3 #v[0x25, 0x12, 0x0A, 0, 0, 0, 0]) ∧
  decode 0b10011001_00000001_00000000_11101101_11001100_00010010_00110100_0_0111_100#64
    = .ok (.dsmp 7 #v[0x34, 0x12, 0xCC, 0xED, 0x00, 0x01, 0x99]) ∧
  decode 0b00000000_00000000_00000000_00000000_00000000_00000000_00000000_0_0000_101#64
    = .error (.illegalOp 5) ∧
  decode 0b00000000_00000000_00000000_00000000_00000000_00000000_10000000_1_0001_001#64
    = .error .reservedBitSet

/-- R77 (decision D25): the canonical encoding of a text. A byte list of up to 15 bytes becomes its decoder with `len`
the number of bytes, the listed bytes in the lanes, zero in every lane not listed and `rsv = 0`; a group becomes MAPRD
with zero in `REQ[63:8]`. -/
def Obligations.CanonicalRequestsCarryTheirText : Prop :=
  (∀ (d : Decoder) (bytes : List Byte), bytes.length ≤ 15 →
    ∃ i : Instr, decode (encode (decodeRequest d bytes)) = .ok i ∧ i.op = d.op ∧ i.arg = bytes.length ∧
      ∀ k (hk : k < 7), i.lanes[k] = (if h : k < bytes.length then bytes[k] else 0)) ∧
  ∀ g : GroupRef, (TextRequest.maprd g).wellFormed = true →
    (encode (TextRequest.maprd g).assemble).extractLsb' 8 56 = 0 ∧
    ∃ lanes, decode (encode (TextRequest.maprd g).assemble) = .ok (.maprd g.grp lanes)

/-! ### A step -/

/-- R10, R144: a step answers the instruction the request on `REQ` decodes to, and adds nothing around it: there is
no program counter to advance (R21). -/
def Obligations.StepRunsTheDecodedInstruction : Prop :=
  (∀ (s : State) (i : Instr), decode s.req = .ok i → step s = exec i s) ∧
  ∀ (s : State) (i : Instr), i.wellFormed = true →
    step (s.present (encode i)) = exec i (s.present (encode i))

/-- R10: the block is a total function of the request and of nothing else, and every one of the 2^64 requests is
answered with a success response or an error response. -/
def Obligations.ResponseIsATotalFunctionOfTheRequest : Prop :=
  ∃ f : Word → Word,
    (∀ s : State, step s = .next { req := s.req, rsp := f s.req }) ∧
    ∀ q : Word, IsSuccess (q.extractLsb' 0 3) (f q) ∨ IsError (q.extractLsb' 0 3) 1 (f q) ∨
      IsError (q.extractLsb' 0 3) 2 (f q) ∨ IsError (q.extractLsb' 0 3) 3 (f q)

/-- R144 (decision D9): the decoder, the dispatch and the typed meanings together compute the top-level function
`rbd` of R144, built from the wire form each operation rule gives. -/
def Obligations.StepComputesTheTopLevelFunction : Prop :=
  ∀ s : State, step s = .next { req := s.req, rsp := rbd s.req }

/-- R24, R161: after a step from any state at all the ports agree, `RSP = rbd(REQ)`, and they still do after the
next step. -/
def Obligations.EveryStepSettlesThePorts : Prop :=
  ∀ s s' : State, step s = .next s' → Settled s' ∧ step s' = .next s'

/-- R161, R162: the ports agree at power-up. That `REQ` is 0 there is the model's choice (log entry 2). -/
def Obligations.PortsAgreeAtReset : Prop :=
  Settled State.reset ∧ State.reset.req = 0 ∧ State.reset.rsp = 0x0000000001000000#64

/-- R63, R140, R141, R142, R145: the form of every response: `err` is 0 exactly when `cause` is 0, an error has no
payload bit, bits 15:6 are 0, and `kind` echoes `REQ.op` for every request, legal or not (decision D28). -/
def Obligations.EveryResponseKeepsTheFormat : Prop :=
  ∀ s t : State, step s = .next t →
    t.rsp.extractLsb' 6 10 = 0 ∧ t.rsp.extractLsb' 3 3 = s.req.extractLsb' 0 3 ∧
    (t.rsp.getLsbD 0 = false ↔ t.rsp.extractLsb' 1 2 = 0) ∧
    (t.rsp.getLsbD 0 = true → t.rsp.extractLsb' 16 48 = 0)

/-- R140: every transaction has exactly one of two outcomes, a typed value with `err = 0` or a cause and no value with
`err = 1`, decided by `REQ` alone; a correct decoder request and a MAPRD request of a group always succeed, and no
other request does. -/
def Obligations.EveryTransactionHasOneOfTwoOutcomes : Prop :=
  ∀ s : State, ∃ t, step s = .next t ∧ (∀ s' : State, s'.req = s.req → step s' = .next t) ∧
    ((t.rsp.getLsbD 0 = false ∧
        ∃ v : Value, readReply t.rsp = some (.ok v) ∧ opCode v.op = s.req.extractLsb' 0 3) ∨
     (t.rsp.getLsbD 0 = true ∧ t.rsp.extractLsb' 16 48 = 0 ∧
        ∃ c : Cause, readReply t.rsp = some (.err (s.req.extractLsb' 0 3) c))) ∧
    (t.rsp.getLsbD 0 = false ↔
      s.req.getLsbD 7 = false ∧
        ((s.req.extractLsb' 0 3 = 0 ∧ (s.req.extractLsb' 3 4).toNat ≤ 9) ∨
         (s.req.extractLsb' 0 3 = 1 ∧ 1 ≤ (s.req.extractLsb' 3 4).toNat) ∨
         (s.req.extractLsb' 0 3 = 2 ∧ 1 ≤ (s.req.extractLsb' 3 4).toNat) ∨
         (s.req.extractLsb' 0 3 = 3 ∧ 3 ≤ (s.req.extractLsb' 3 4).toNat) ∨
         (s.req.extractLsb' 0 3 = 4 ∧ 6 ≤ (s.req.extractLsb' 3 4).toNat)))

/-- R141 (decision D8): the cause codes and, exactly, what raises each; code 0 is success. -/
def Obligations.CauseCodesSayExactlyWhatIsWrong : Prop :=
  ∀ s t : State, step s = .next t →
    (t.rsp.extractLsb' 1 2 = 2 ↔ s.req.getLsbD 7 = true ∨ s.req.extractLsb' 0 3 = 5 ∨
      s.req.extractLsb' 0 3 = 6 ∨ s.req.extractLsb' 0 3 = 7) ∧
    (t.rsp.extractLsb' 1 2 = 3 ↔ s.req.getLsbD 7 = false ∧ s.req.extractLsb' 0 3 = 0 ∧
      10 ≤ (s.req.extractLsb' 3 4).toNat) ∧
    (t.rsp.extractLsb' 1 2 = 1 ↔ s.req.getLsbD 7 = false ∧
      ((s.req.extractLsb' 0 3 = 1 ∧ (s.req.extractLsb' 3 4).toNat = 0) ∨
       (s.req.extractLsb' 0 3 = 2 ∧ (s.req.extractLsb' 3 4).toNat = 0) ∨
       (s.req.extractLsb' 0 3 = 3 ∧ (s.req.extractLsb' 3 4).toNat ≤ 2) ∨
       (s.req.extractLsb' 0 3 = 4 ∧ (s.req.extractLsb' 3 4).toNat ≤ 5))) ∧
    (t.rsp.extractLsb' 1 2 = 0 ↔ t.rsp.getLsbD 0 = false)

/-- R49: the same `REQ` always gives the same `RSP`, however often it is asked: any positive number of steps leaves
what one leaves. -/
def Obligations.RepeatingATransactionChangesNothing : Prop :=
  ∀ (s t : State) (k : Nat), step s = .next t → core.run (k + 1) s = .next t

/-- R50: (a) and (b), each response is that of its own request, whatever transactions came before or come after;
(c) transactions issued in any order, repeated, or to another copy of the block (a state of its own) give the same
results, request by request. -/
def Obligations.SequencesAnswerEachRequestOnItsOwn : Prop :=
  (∀ (s : State) (before after : List Word) (q : Word) (s' : State) (r : Word),
    response (s'.present q) = some r →
    ∃ rs, serve s (before ++ q :: after) = some rs ∧ rs.length = before.length + 1 + after.length ∧
      rs[before.length]? = some r) ∧
  ∀ (s s' : State) (qs qs' : List Word), qs.Perm qs' →
    ∃ rs rs', serve s qs = some rs ∧ serve s' qs' = some rs' ∧ (qs.zip rs).Perm (qs'.zip rs')

/-! ### Frames -/

/-- R20 to R24, R49: what an instruction changes is `RSP` alone, and what it writes there does not depend on the
state it runs in. -/
def Obligations.InstructionsChangeOnlyTheResponsePort : Prop :=
  ∀ (i : Instr) (s t : State), exec i s = .next t →
    t.req = s.req ∧ ∀ s' : State, exec i s' = .next { req := s'.req, rsp := t.rsp }

/-! ### Errors -/

/-- R71 (decisions D4, D8). -/
def Obligations.IllegalOperationCodesAnswerErrOp : Prop :=
  ∀ s : State, (s.req.extractLsb' 0 3 = 5 ∨ s.req.extractLsb' 0 3 = 6 ∨ s.req.extractLsb' 0 3 = 7) →
    ∃ r, step s = .next { req := s.req, rsp := r } ∧ IsError (s.req.extractLsb' 0 3) 2 r

/-- R72 (decision D10). -/
def Obligations.ReservedBitAnswersErrOp : Prop :=
  ∀ s : State, s.req.getLsbD 7 = true →
    ∃ r, step s = .next { req := s.req, rsp := r } ∧ IsError (s.req.extractLsb' 0 3) 2 r

/-- R73 (decision D15), at the instruction and at a request word. -/
def Obligations.GroupsTenToFifteenAnswerErrGrp : Prop :=
  (∀ (grp : Nat) (lanes : Buffer) (s : State), 10 ≤ grp →
    ∃ r, exec (.maprd grp lanes) s = .next { req := s.req, rsp := r } ∧ IsError 0 3 r) ∧
  ∀ s : State, s.req.getLsbD 7 = false → s.req.extractLsb' 0 3 = 0 → 10 ≤ (s.req.extractLsb' 3 4).toNat →
    ∃ r, step s = .next { req := s.req, rsp := r } ∧ IsError 0 3 r

/-- R141, R142, R48: an undersized buffer is answered with ERR_LEN, and no buffer byte reaches the response. -/
def Obligations.UndersizedBuffersAnswerErrLen : Prop :=
  ∀ (len : Nat) (buf : Buffer) (s : State),
    (len < 1 → ∃ r, exec (.dstat len buf) s = .next { req := s.req, rsp := r } ∧ IsError 1 1 r) ∧
    (len < 1 → ∃ r, exec (.dpmu len buf) s = .next { req := s.req, rsp := r } ∧ IsError 2 1 r) ∧
    (len < 3 → ∃ r, exec (.dint len buf) s = .next { req := s.req, rsp := r } ∧ IsError 3 1 r) ∧
    (len < 6 → ∃ r, exec (.dsmp len buf) s = .next { req := s.req, rsp := r } ∧ IsError 4 1 r)

/-- R143: the two undersized cases the document fixes, for every choice of the bytes: an error the caller can see. -/
def Obligations.TwoByteInterruptsAndFiveByteSamplesAreErrors : Prop :=
  (∀ (s : State) (a b : Byte), ∃ t,
    step (s.present (encode (TextRequest.assemble (.dint [a, b])))) = .next t ∧
      IsError 3 1 t.rsp ∧ readReply t.rsp = some (.err 3 .errLen)) ∧
  ∀ (s : State) (a b c d e : Byte), ∃ t,
    step (s.present (encode (TextRequest.assemble (.dsmp [a, b, c, d, e])))) = .next t ∧
      IsError 4 1 t.rsp ∧ readReply t.rsp = some (.err 4 .errLen)

/-! ### MAPRD -/

/-- R90 (decisions D15, D16, D26): the ten results, "the whole content of the map", whatever the lanes hold; ERR_GRP
for `grp` 10 to 15; the operand and the encoding; ERR_OP when `rsv = 1`, tested first; the rule's example. -/
def Obligations.MaprdReturnsTheTenEntries : Prop :=
  (∀ (lanes : Buffer) (s : State),
    exec (.maprd 0 lanes) s = .next { req := s.req, rsp := 0x0000000001000000 } ∧
    exec (.maprd 1 lanes) s = .next { req := s.req, rsp := 0x0000000001020000 } ∧
    exec (.maprd 2 lanes) s = .next { req := s.req, rsp := 0x0000000021030000 } ∧
    exec (.maprd 3 lanes) s = .next { req := s.req, rsp := 0x0000000047040000 } ∧
    exec (.maprd 4 lanes) s = .next { req := s.req, rsp := 0x00000000460C0000 } ∧
    exec (.maprd 5 lanes) s = .next { req := s.req, rsp := 0x0000000046120000 } ∧
    exec (.maprd 6 lanes) s = .next { req := s.req, rsp := 0x0000000003180000 } ∧
    exec (.maprd 7 lanes) s = .next { req := s.req, rsp := 0x00000000111B0000 } ∧
    exec (.maprd 8 lanes) s = .next { req := s.req, rsp := 0x0000000033500000 } ∧
    exec (.maprd 9 lanes) s = .next { req := s.req, rsp := 0x00000000817E0000 }) ∧
  (∀ (grp : Nat) (lanes : Buffer) (s : State), 10 ≤ grp →
    ∃ r, exec (.maprd grp lanes) s = .next { req := s.req, rsp := r } ∧ IsError 0 3 r) ∧
  (∀ s : State, s.req.extractLsb' 0 3 = 0 → s.req.getLsbD 7 = false →
    ∃ lanes : Buffer, step s = exec (.maprd (s.req.extractLsb' 3 4).toNat lanes) s) ∧
  (∀ s : State, s.req.extractLsb' 0 3 = 0 → s.req.getLsbD 7 = true →
    ∃ r, step s = .next { req := s.req, rsp := r } ∧ IsError 0 2 r) ∧
  ∀ s : State, response (s.present 0x0000000000000028) = some 0x0000000046120000

/-- R68, R90: MAPRD of any group of the map succeeds with its entry in the fields of the format. -/
def Obligations.MaprdReturnsTheEntryOfItsGroup : Prop :=
  ∀ (grp : Nat) (lanes : Buffer) (s : State) (h : grp < 10),
    ∃ t, exec (.maprd grp lanes) s = .next t ∧ t.req = s.req ∧ IsSuccess 0 t.rsp ∧
      t.rsp.extractLsb' 16 8 = (rom[grp]).entry.base ∧ t.rsp.extractLsb' 24 4 = (rom[grp]).entry.span ∧
      t.rsp.extractLsb' 28 3 = decCode (rom[grp]).entry.dec ∧ t.rsp.getLsbD 31 = (rom[grp]).entry.wo ∧
      t.rsp.extractLsb' 32 32 = 0

/-- R25 (decisions D15 to D17): the register map, row by row: name, base, span, bound decoder, write-only mark; and
each name stands at its own index. -/
def Obligations.MapHoldsTheTenGroups : Prop :=
  rom.toList = [
    ⟨.chipid, ⟨0x00, 1, none, false⟩⟩, ⟨.errReg, ⟨0x02, 1, none, false⟩⟩,
    ⟨.pmuStatus, ⟨0x03, 1, some .dpmu, false⟩⟩, ⟨.mag, ⟨0x04, 7, some .dsmp, false⟩⟩,
    ⟨.gyr, ⟨0x0C, 6, some .dsmp, false⟩⟩, ⟨.acc, ⟨0x12, 6, some .dsmp, false⟩⟩,
    ⟨.sensortime, ⟨0x18, 3, none, false⟩⟩, ⟨.status, ⟨0x1B, 1, some .dstat, false⟩⟩,
    ⟨.intEn, ⟨0x50, 3, some .dint, false⟩⟩, ⟨.cmd, ⟨0x7E, 1, none, true⟩⟩] ∧
  ∀ g : GroupName, (rom[g.index]?).map MapRow.name = some g

/-- R26 (a), (b), (d), the spec's own derivation from R25: every span is at least 1, no two groups overlap, every
base and every last address fits in 7 bits and the largest is 0x7E. -/
def Obligations.MapRangesAreDisjoint : Prop :=
  (∀ g : Fin 10, 1 ≤ (rom[g]).entry.span.toNat) ∧
  (∀ g h : Fin 10, g ≠ h →
    (rom[g]).entry.base.toNat + (rom[g]).entry.span.toNat ≤ (rom[h]).entry.base.toNat ∨
    (rom[h]).entry.base.toNat + (rom[h]).entry.span.toNat ≤ (rom[g]).entry.base.toNat) ∧
  (∀ g : Fin 10, (rom[g]).entry.base.toNat + (rom[g]).entry.span.toNat - 1 ≤ 0x7E) ∧
  ∃ g : Fin 10, (rom[g]).entry.base.toNat + (rom[g]).entry.span.toNat - 1 = 0x7E

/-- R26 (c), R167 as resolved by C1: a group's span is its decoder's need, but for MAG, which has one byte more. -/
def Obligations.MapSpansMeetTheNeeds : Prop :=
  ∀ (g : Fin 10) (d : Decoder), (rom[g]).entry.dec = some d →
    (rom[g]).entry.span.toNat = (if (rom[g]).name = .mag then need d + 1 else need d)

/-! ### DSTAT -/

/-- R100 (decisions D7, D11): with a byte present DSTAT succeeds and `P[k] = b[7-k]` for `k` in 0 to 6, every other
payload bit 0, so bit 0 of the byte reaches none, and the caller reads the seven named flags as the document's mask
tests; ERR_LEN when `len = 0`; the operands and the encoding; ERR_OP when `rsv = 1`, tested first; the rule's
example. -/
def Obligations.DstatDecodesTheStatusByte : Prop :=
  (∀ (len : Nat) (buf : Buffer) (s : State), 1 ≤ len →
    ∃ t v, exec (.dstat len buf) s = .next t ∧ t.req = s.req ∧ IsSuccess 1 t.rsp ∧
      (∀ k, k < 7 → t.rsp.getLsbD (16 + k) = (buf[0]).getLsbD (7 - k)) ∧
      t.rsp.extractLsb' 23 41 = 0 ∧ readReply t.rsp = some (.ok (.status v)) ∧
      v.drdyAcc = (buf[0] &&& 0x80 != 0) ∧ v.drdyGyr = (buf[0] &&& 0x40 != 0) ∧
      v.drdyMag = (buf[0] &&& 0x20 != 0) ∧ v.nvmRdy = (buf[0] &&& 0x10 != 0) ∧
      v.focRdy = (buf[0] &&& 0x08 != 0) ∧ v.magManOp = (buf[0] &&& 0x04 != 0) ∧
      v.gyrSelfTestOk = (buf[0] &&& 0x02 != 0)) ∧
  (∀ (len : Nat) (buf : Buffer) (s : State), len < 1 →
    ∃ r, exec (.dstat len buf) s = .next { req := s.req, rsp := r } ∧ IsError 1 1 r) ∧
  (∀ s : State, s.req.extractLsb' 0 3 = 1 → s.req.getLsbD 7 = false →
    ∃ buf : Buffer, (∀ i (h : i < 7), buf[i] = s.req.extractLsb' (8 * i + 8) 8) ∧
      step s = exec (.dstat (s.req.extractLsb' 3 4).toNat buf) s) ∧
  (∀ s : State, s.req.extractLsb' 0 3 = 1 → s.req.getLsbD 7 = true →
    ∃ r, step s = .next { req := s.req, rsp := r } ∧ IsError 1 2 r) ∧
  ∀ s : State, response (s.present 0x0000000000008009) = some 0x0000000000010008

/-! ### DPMU -/

/-- R110 (decisions D7, D12, D13): with a byte present DPMU succeeds with the wire form of the rule, and for the codes
`a`, `g`, `m` of the byte the caller reads the modes of the rule's table: code 11 of the accelerometer and the
magnetometer is Normal with its fallback flag set, gyroscope code 10 is the value Reserved; ERR_LEN when `len = 0`;
the operands and the encoding; ERR_OP when `rsv = 1`, tested first; the rule's example. -/
def Obligations.DpmuDecodesThePowerModeByte : Prop :=
  (∀ (len : Nat) (buf : Buffer) (s : State), 1 ≤ len →
    ∃ t, exec (.dpmu len buf) s = .next t ∧ t.req = s.req ∧ IsSuccess 2 t.rsp ∧
      t.rsp.extractLsb' 16 2 = (if (buf[0]).extractLsb' 4 2 = 3 then 1#2 else (buf[0]).extractLsb' 4 2) ∧
      t.rsp.extractLsb' 18 2 = (buf[0]).extractLsb' 2 2 ∧
      t.rsp.extractLsb' 20 2 = (if (buf[0]).extractLsb' 0 2 = 3 then 1#2 else (buf[0]).extractLsb' 0 2) ∧
      t.rsp.getLsbD 22 = ((buf[0]).getLsbD 5 && (buf[0]).getLsbD 4) ∧
      t.rsp.getLsbD 23 = ((buf[0]).getLsbD 1 && (buf[0]).getLsbD 0) ∧
      t.rsp.extractLsb' 24 40 = 0) ∧
  (∀ (len : Nat) (buf : Buffer) (s : State) (a g m : BitVec 2), 1 ≤ len → (buf[0]).extractLsb' 4 2 = a →
    (buf[0]).extractLsb' 2 2 = g → (buf[0]).extractLsb' 0 2 = m →
    ∃ t v, exec (.dpmu len buf) s = .next t ∧ readReply t.rsp = some (.ok (.powerMode v)) ∧
      (a = 0 → v.accMode = .suspend) ∧ (a = 1 → v.accMode = .normal) ∧
      (a = 2 → v.accMode = .lowPower) ∧ (a = 3 → v.accMode = .normal) ∧ (v.accFb = true ↔ a = 3) ∧
      (g = 0 → v.gyrMode = .suspend) ∧ (g = 1 → v.gyrMode = .normal) ∧
      (g = 2 → v.gyrMode = .reserved) ∧ (g = 3 → v.gyrMode = .fastStartUp) ∧
      (m = 0 → v.magMode = .suspend) ∧ (m = 1 → v.magMode = .normal) ∧
      (m = 2 → v.magMode = .lowPower) ∧ (m = 3 → v.magMode = .normal) ∧ (v.magFb = true ↔ m = 3)) ∧
  (∀ (len : Nat) (buf : Buffer) (s : State), len < 1 →
    ∃ r, exec (.dpmu len buf) s = .next { req := s.req, rsp := r } ∧ IsError 2 1 r) ∧
  (∀ s : State, s.req.extractLsb' 0 3 = 2 → s.req.getLsbD 7 = false →
    ∃ buf : Buffer, (∀ i (h : i < 7), buf[i] = s.req.extractLsb' (8 * i + 8) 8) ∧
      step s = exec (.dpmu (s.req.extractLsb' 3 4).toNat buf) s) ∧
  (∀ s : State, s.req.extractLsb' 0 3 = 2 → s.req.getLsbD 7 = true →
    ∃ r, step s = .next { req := s.req, rsp := r } ∧ IsError 2 2 r) ∧
  ∀ s : State, response (s.present 0x000000000000150A) = some 0x0000000000150010

/-- R65, R110 corner case (b): no response of any request of operation 2 holds the code 0b11 in `acc_mode` or
`mag_mode`. -/
def Obligations.FallbackCodeIsNeverProduced : Prop :=
  ∀ s t : State, step s = .next t → s.req.extractLsb' 0 3 = 2 →
    t.rsp.extractLsb' 16 2 ≠ 3 ∧ t.rsp.extractLsb' 20 2 ≠ 3

/-! ### DINT -/

/-- R120 (decisions D6, D11): with three bytes present DINT succeeds with the vectors of the rule and the caller reads
each of the eighteen named flags as its bit of its byte; ERR_LEN when `len` is 0, 1 or 2, with no partial decoding;
the operands and the encoding; ERR_OP when `rsv = 1`, tested first; the rule's example. -/
def Obligations.DintDecodesTheInterruptBytes : Prop :=
  (∀ (len : Nat) (buf : Buffer) (s : State), 3 ≤ len →
    ∃ t v, exec (.dint len buf) s = .next t ∧ t.req = s.req ∧ IsSuccess 3 t.rsp ∧
      t.rsp.extractLsb' 16 3 = (buf[0]).extractLsb' 0 3 ∧ t.rsp.extractLsb' 19 4 = (buf[0]).extractLsb' 4 4 ∧
      t.rsp.extractLsb' 23 7 = (buf[1]).extractLsb' 0 7 ∧ t.rsp.extractLsb' 30 4 = (buf[2]).extractLsb' 0 4 ∧
      t.rsp.extractLsb' 34 30 = 0 ∧ readReply t.rsp = some (.ok (.interrupts v)) ∧
      v.anyMotionX = (buf[0]).getLsbD 0 ∧ v.anyMotionY = (buf[0]).getLsbD 1 ∧
      v.anyMotionZ = (buf[0]).getLsbD 2 ∧ v.doubleTap = (buf[0]).getLsbD 4 ∧
      v.singleTap = (buf[0]).getLsbD 5 ∧ v.orientation = (buf[0]).getLsbD 6 ∧
      v.flat = (buf[0]).getLsbD 7 ∧ v.highGX = (buf[1]).getLsbD 0 ∧
      v.highGY = (buf[1]).getLsbD 1 ∧ v.highGZ = (buf[1]).getLsbD 2 ∧
      v.lowG = (buf[1]).getLsbD 3 ∧ v.dataReady = (buf[1]).getLsbD 4 ∧
      v.fifoFull = (buf[1]).getLsbD 5 ∧ v.fifoWatermark = (buf[1]).getLsbD 6 ∧
      v.noMotionX = (buf[2]).getLsbD 0 ∧ v.noMotionY = (buf[2]).getLsbD 1 ∧
      v.noMotionZ = (buf[2]).getLsbD 2 ∧ v.stepDetector = (buf[2]).getLsbD 3) ∧
  (∀ (len : Nat) (buf : Buffer) (s : State), len < 3 →
    ∃ r, exec (.dint len buf) s = .next { req := s.req, rsp := r } ∧ IsError 3 1 r) ∧
  (∀ s : State, s.req.extractLsb' 0 3 = 3 → s.req.getLsbD 7 = false →
    ∃ buf : Buffer, (∀ i (h : i < 7), buf[i] = s.req.extractLsb' (8 * i + 8) 8) ∧
      step s = exec (.dint (s.req.extractLsb' 3 4).toNat buf) s) ∧
  (∀ s : State, s.req.extractLsb' 0 3 = 3 → s.req.getLsbD 7 = true →
    ∃ r, step s = .next { req := s.req, rsp := r } ∧ IsError 3 2 r) ∧
  ∀ s : State, response (s.present 0x000000000000011B) = some 0x0000000000010018

/-! ### DSMP -/

/-- R130 (decisions D6, D14, D17): with six bytes present DSMP succeeds, `P[8*i+7 : 8*i] = buf[i]` for `i` in 0 to 5,
and the caller reads the three axis values, as numbers, as signed little-endian pairs (65536 subtracted from 32768 and
above, which is when the high byte is 128 or more); ERR_LEN when `len` is 0 to 5; the operands and the encoding;
ERR_OP when `rsv = 1`, tested first; the rule's example. -/
def Obligations.DsmpUnpacksThreeSignedWords : Prop :=
  (∀ (len : Nat) (buf : Buffer) (s : State), 6 ≤ len →
    ∃ t v, exec (.dsmp len buf) s = .next t ∧ t.req = s.req ∧ IsSuccess 4 t.rsp ∧
      (∀ i (h : i < 6), t.rsp.extractLsb' (8 * i + 16) 8 = buf[i]) ∧
      readReply t.rsp = some (.ok (.sample v)) ∧
      v.x = t.rsp.extractLsb' 16 16 ∧ v.y = t.rsp.extractLsb' 32 16 ∧ v.z = t.rsp.extractLsb' 48 16 ∧
      sint16 v.x = (buf[0].toNat + 256 * buf[1].toNat : Int) - (if 128 ≤ buf[1].toNat then 65536 else 0) ∧
      sint16 v.y = (buf[2].toNat + 256 * buf[3].toNat : Int) - (if 128 ≤ buf[3].toNat then 65536 else 0) ∧
      sint16 v.z = (buf[4].toNat + 256 * buf[5].toNat : Int) - (if 128 ≤ buf[5].toNat then 65536 else 0)) ∧
  (∀ (len : Nat) (buf : Buffer) (s : State), len < 6 →
    ∃ r, exec (.dsmp len buf) s = .next { req := s.req, rsp := r } ∧ IsError 4 1 r) ∧
  (∀ s : State, s.req.extractLsb' 0 3 = 4 → s.req.getLsbD 7 = false →
    ∃ buf : Buffer, (∀ i (h : i < 7), buf[i] = s.req.extractLsb' (8 * i + 8) 8) ∧
      step s = exec (.dsmp (s.req.extractLsb' 3 4).toNat buf) s) ∧
  (∀ s : State, s.req.extractLsb' 0 3 = 4 → s.req.getLsbD 7 = true →
    ∃ r, step s = .next { req := s.req, rsp := r } ∧ IsError 4 2 r) ∧
  ∀ s : State, response (s.present 0x0000000000800034) = some 0x0000000080000020

/-- R131, the spec's own derivation from R130: word assembly is exact. -/
def Obligations.WordAssemblyIsExact : Prop :=
  ∀ low high : Byte, (axisWord low high).toNat = low.toNat + 256 * high.toNat

/-- R132: the signed reading, and that it is a bijection from the 65536 patterns to -32768..32767. -/
def Obligations.SignedReadingIsABijection : Prop :=
  (∀ u : AxisWord, (u.toNat ≤ 32767 → sint16 u = u.toNat) ∧ (32768 ≤ u.toNat → sint16 u = u.toNat - 65536)) ∧
  (∀ u : AxisWord, -32768 ≤ sint16 u ∧ sint16 u ≤ 32767) ∧
  ∀ n : Int, -32768 ≤ n → n ≤ 32767 → ∃ u : AxisWord, sint16 u = n ∧ ∀ u' : AxisWord, sint16 u' = n → u' = u

/-! ### The decoders together -/

/-- R48, R75 (decisions D5, D6): every `len` of at least `NEED`, 8 to 15 included, gives the same answer, and bytes at
an index of `NEED` or above never affect it. -/
def Obligations.LongBuffersAreDecodedFromTheirFirstBytes : Prop :=
  ∀ (len len' : Nat) (buf buf' : Buffer) (s : State),
    (1 ≤ len → 1 ≤ len' → buf[0] = buf'[0] → exec (.dstat len buf) s = exec (.dstat len' buf') s) ∧
    (1 ≤ len → 1 ≤ len' → buf[0] = buf'[0] → exec (.dpmu len buf) s = exec (.dpmu len' buf') s) ∧
    (3 ≤ len → 3 ≤ len' → (∀ i (h : i < 3), buf[i] = buf'[i]) →
      exec (.dint len buf) s = exec (.dint len' buf') s) ∧
    (6 ≤ len → 6 ≤ len' → (∀ i (h : i < 6), buf[i] = buf'[i]) →
      exec (.dsmp len buf) s = exec (.dsmp len' buf') s)

/-- R75 at the request word: a `len` of 8 to 15 never causes an error, and the answer is that of the same lanes with
`len = 7`. -/
def Obligations.LengthsEightToFifteenAreLegal : Prop :=
  ∀ s : State, s.req.getLsbD 7 = false → 1 ≤ (s.req.extractLsb' 0 3).toNat → (s.req.extractLsb' 0 3).toNat ≤ 4 →
    8 ≤ (s.req.extractLsb' 3 4).toNat →
    ∃ r, step s = .next { req := s.req, rsp := r } ∧ IsSuccess (s.req.extractLsb' 0 3) r ∧
      response (s.present ((s.req &&& ~~~0x78#64) ||| 0x38#64)) = some r

/-- R74, the spec's own derivation from R48 and R27 to R29, R71, R72: which bits of a request can affect the
response. Two requests that agree on the bits of the mask get the same response, for each operation: the masks leave
out the lanes no decoder reads (a), (b), and the unnamed bits of the bytes that are read (d); a request that ends in
an error depends on its control byte alone (c). -/
def Obligations.DontCareBitsNeverReachTheResponse : Prop :=
  ∀ (s : State) (q q' : Word),
    (q.extractLsb' 0 3 = 0#3 → q &&& 0xFF#64 = q' &&& 0xFF#64 →
      response (State.present s q) = response (State.present s q')) ∧
    (q.extractLsb' 0 3 = 1#3 → q &&& 0xFEFF#64 = q' &&& 0xFEFF#64 →
      response (State.present s q) = response (State.present s q')) ∧
    (q.extractLsb' 0 3 = 2#3 → q &&& 0x3FFF#64 = q' &&& 0x3FFF#64 →
      response (State.present s q) = response (State.present s q')) ∧
    (q.extractLsb' 0 3 = 3#3 → q &&& 0x0F7FF7FF#64 = q' &&& 0x0F7FF7FF#64 →
      response (State.present s q) = response (State.present s q')) ∧
    (q.extractLsb' 0 3 = 4#3 → q &&& 0x00FFFFFFFFFFFFFF#64 = q' &&& 0x00FFFFFFFFFFFFFF#64 →
      response (State.present s q) = response (State.present s q')) ∧
    (∀ r, response (State.present s q) = some r → r.getLsbD 0 = true → q &&& 0xFF#64 = q' &&& 0xFF#64 →
      response (State.present s q') = some r)

/-! ### Reading a response -/

/-- R11, R63 to R68: a caller reads back from a success response exactly the typed value that was returned, and from
an error response its cause and `kind`. -/
def Obligations.ResponsesReadBackAsTheirValue : Prop :=
  (∀ v : Value, readReply (successResponse v.op v.payload) = some (.ok v)) ∧
  ∀ (kind : BitVec 3) (c : Cause), readReply (errorResponse kind c) = some (.err kind c)

/-! ### The caller and the device

These take one complete read of a group as the bytes of one fixed device image `dev`, which is the model's choice (log
entry 8, DESIGN CHOICE, unsafe: 91_not_in_source.md N9 leaves the consistency of a read open). Which decoder the bytes of
a group go to is the spec's own decision (R25, decision D16; log entry 4). -/

/-- R91, R166, R167: a caller that asks for `span` bytes and hands them to the bound decoder always gets a value, for
every group that has a decoder. The bytes are those of one fixed image (log entry 8, the model's choice); the binding
is decision D16. -/
def Obligations.CompleteReadsAlwaysDecode : Prop :=
  ∀ (dev : Nat → Byte) (g : GroupName) (s : State) (e : MapEntry) (d : Decoder),
    lookup g.index = some e → e.dec = some d →
    ∃ q t, pollRequest g (.ok (readGroup dev g)) = some q ∧ step (s.present q) = .next t ∧
      IsSuccess (opCode d.op) t.rsp

/-- R31, R148: no request is made of a failed read, nor of a group without a decoder. -/
def Obligations.NoRequestWithoutABufferAndADecoder : Prop :=
  (∀ (g : GroupName) (e : TransportError), pollRequest g (.error e) = none) ∧
  ∀ (g : GroupName) (bytes : List Byte),
    (g = .chipid ∨ g = .errReg ∨ g = .sensortime ∨ g = .cmd) → pollRequest g (.ok bytes) = none

/-- R27, R43, R100: a claim about the device. After one complete read of STATUS, `drdy_acc` and its six fellows are
bits 7 to 1 of the device's register 0x1B. The byte is that of one fixed image (log entry 8, the model's choice); that
STATUS goes to DSTAT is decision D16. -/
def Obligations.StatusReadReportsDeviceRegister1B : Prop :=
  ∀ (dev : Nat → Byte) (s : State), ∃ q t,
    pollRequest .status (.ok (readGroup dev .status)) = some q ∧ step (s.present q) = .next t ∧
      IsSuccess 1 t.rsp ∧ ∀ k, k < 7 → t.rsp.getLsbD (16 + k) = (dev 0x1B).getLsbD (7 - k)

/-- R28, R43, R110: after one complete read of PMU_STATUS the modes are the codes of the device's register 0x03, code
11 of the accelerometer and the magnetometer giving Normal with the fallback flag. The byte is that of one fixed image
(log entry 8, the model's choice); that PMU_STATUS goes to DPMU is decision D16. -/
def Obligations.PowerReadReportsDeviceRegister03 : Prop :=
  ∀ (dev : Nat → Byte) (s : State), ∃ q t v,
    pollRequest .pmuStatus (.ok (readGroup dev .pmuStatus)) = some q ∧ step (s.present q) = .next t ∧
      IsSuccess 2 t.rsp ∧ readReply t.rsp = some (.ok (.powerMode v)) ∧
      v.accMode.code = (if (dev 0x03).extractLsb' 4 2 = 3 then 1#2 else (dev 0x03).extractLsb' 4 2) ∧
      v.gyrMode.code = (dev 0x03).extractLsb' 2 2 ∧
      v.magMode.code = (if (dev 0x03).extractLsb' 0 2 = 3 then 1#2 else (dev 0x03).extractLsb' 0 2) ∧
      (v.accFb = true ↔ (dev 0x03).extractLsb' 4 2 = 3) ∧ (v.magFb = true ↔ (dev 0x03).extractLsb' 0 2 = 3)

/-- R29, R43, R120: after one complete read of INT_EN the answer is a success whose payload holds the named bits of the
device's registers 0x50, 0x51 and 0x52 and is 0 above them. The three bytes are those of one fixed image (log entry 8,
the model's choice). R29: "That this image is the one the Interrupt Decoder is meant for is a decision" (90_conflicts.md
C5, decision D16), and what is said is the bits as found, not that a source fired (R121). -/
def Obligations.InterruptReadReportsDeviceRegisters50To52 : Prop :=
  ∀ (dev : Nat → Byte) (s : State), ∃ q t,
    pollRequest .intEn (.ok (readGroup dev .intEn)) = some q ∧ step (s.present q) = .next t ∧ IsSuccess 3 t.rsp ∧
      t.rsp.extractLsb' 16 3 = (dev 0x50).extractLsb' 0 3 ∧ t.rsp.extractLsb' 19 4 = (dev 0x50).extractLsb' 4 4 ∧
      t.rsp.extractLsb' 23 7 = (dev 0x51).extractLsb' 0 7 ∧ t.rsp.extractLsb' 30 4 = (dev 0x52).extractLsb' 0 4 ∧
      t.rsp.extractLsb' 34 30 = 0

/-- R30, R43, R130: after one complete read of MAG, GYR or ACC, byte `i` of the payload is the device's register at
the group's base plus `i`; the seventh byte of MAG has no effect (C1). The six or seven bytes are those of one fixed
image (log entry 8, the model's choice, unsafe; 91_not_in_source.md N9); that the three groups go to DSMP is decision
D16. -/
def Obligations.SampleReadsReportTheDeviceWords : Prop :=
  ∀ (dev : Nat → Byte) (s : State) (g : GroupName) (base : Nat),
    (g = .mag ∧ base = 0x04) ∨ (g = .gyr ∧ base = 0x0C) ∨ (g = .acc ∧ base = 0x12) →
    ∃ q t, pollRequest g (.ok (readGroup dev g)) = some q ∧ step (s.present q) = .next t ∧
      IsSuccess 4 t.rsp ∧ ∀ i, i < 6 → t.rsp.extractLsb' (8 * i + 16) 8 = dev (base + i)

/-- R78: each of the document's function names is the named operation with the byte or byte list as buffer; with the
examples the document gives of each. -/
def Obligations.DocumentFunctionNamesAreTheOperations : Prop :=
  (∀ b : Byte, (decodeStatus b).assemble = .dstat 1 #v[b, 0, 0, 0, 0, 0, 0]) ∧
  (∀ b : Byte, (decodePowerMode b).assemble = .dpmu 1 #v[b, 0, 0, 0, 0, 0, 0]) ∧
  (∀ b0 b1 b2 : Byte, (decodeInterrupts b0 b1 b2).assemble = .dint 3 #v[b0, b1, b2, 0, 0, 0, 0]) ∧
  (∀ b0 b1 b2 b3 b4 b5 : Byte,
    (decodeSensorSample b0 b1 b2 b3 b4 b5).assemble = .dsmp 6 #v[b0, b1, b2, b3, b4, b5, 0]) ∧
  ∀ s : State,
    response (s.present (encode (decodeStatus 0x80).assemble)) = some 0x0000000000010008#64 ∧
    response (s.present (encode (decodePowerMode 0x00).assemble)) = some 0x0000000000000010#64 ∧
    response (s.present (encode (decodePowerMode 0x15).assemble)) = some 0x0000000000150010#64 ∧
    response (s.present (encode (decodePowerMode 0x30).assemble)) = some 0x0000000000410010#64 ∧
    response (s.present (encode (decodeInterrupts 0x01 0x00 0x00).assemble)) = some 0x0000000000010018#64 ∧
    response (s.present (encode (decodeSensorSample 0xFF 0xFF 0xFF 0xFF 0xFF 0xFF).assemble))
      = some 0xFFFFFFFFFFFF0020#64 ∧
    response (s.present (encode (decodeSensorSample 0x00 0x80 0x00 0x00 0x00 0x00).assemble))
      = some 0x0000000080000020#64

/-! ### Words that are no response -/

/-- The model's choice (log entry 10), no rule of the spec: a word is read only if it is, bit for bit, the response
word of R63 that carries what is read. With one word of each kind that is not: `err` 0 with a cause, a bit of 15:6, an
unnamed payload bit, an error with a payload. -/
def Obligations.OnlyResponseWordsAreRead : Prop :=
  (∀ (r : Word) (v : Value), readReply r = some (.ok v) → r = successResponse v.op v.payload) ∧
  (∀ (r : Word) (kind : BitVec 3) (c : Cause), readReply r = some (.err kind c) → r = errorResponse kind c) ∧
  readReply 0x0000000000000002 = none ∧ readReply 0x0000000000000040 = none ∧
  readReply 0x0000000000800008 = none ∧ readReply 0x0000000000010003 = none
end

