-- ==== Sys2Proof/Laws/State.lean ====
section
/-! SUPPORT. One lemma per field per update of State, and the state at reset. -/

namespace Sys2Proof.Laws

open Sys2Proof.Machine

@[simp] theorem present_req (s : State) (q : Word) : (s.present q).req = q := rfl
@[simp] theorem present_rsp (s : State) (q : Word) : (s.present q).rsp = s.rsp := rfl
@[simp] theorem respond_req (s : State) (r : Word) : (s.respond r).req = s.req := rfl
@[simp] theorem respond_rsp (s : State) (r : Word) : (s.respond r).rsp = r := rfl
@[simp] theorem respond_respond (s : State) (r r' : Word) : (s.respond r).respond r' = s.respond r' := rfl
@[simp] theorem respond_present (s : State) (r q : Word) : (s.respond r).present q = (s.present q).respond r := rfl

@[simp] theorem withFetchWord_req (s : State) (nbits w : Nat) :
    (s.withFetchWord nbits w).req = tableRequest nbits w := rfl
@[simp] theorem withFetchWord_rsp (s : State) (nbits w : Nat) : (s.withFetchWord nbits w).rsp = s.rsp := rfl

/-- `RSP` at power-up is the response to the request that stands on `REQ` (70_reset_and_hazards.md R161). -/
theorem reset_rsp : State.reset.rsp = rbd State.reset.req := by decide

/-- `respond` as a literal state. -/
theorem respond_eq (s : State) (r : Word) : s.respond r = { req := s.req, rsp := r } := rfl

end Sys2Proof.Laws
end

