-- ==== Sys2Proof/Laws/Request.lean ====
section
/-! SUPPORT. The fields of a request word (30_encoding.md R60) and what the decoder says of it. -/

namespace Sys2Proof.Laws

open Sys2Proof.Machine

section Fields

variable (op : BitVec 3) (arg : BitVec 4) (rsv : BitVec 1) (buf : Buffer)

/-- The control byte: every bit of a request word below the lanes. -/
theorem getLsbD_packRequest_low (i : Nat) (h : i < 8) :
    (packRequest op arg rsv buf).getLsbD i =
      if i < 3 then op.getLsbD i else if i < 7 then arg.getLsbD (i - 3) else rsv.getLsbD (i - 7) := by
  have e1 : (i - 3 < 4) = (i < 7) := by apply propext; omega
  have e2 : i - 3 - 4 = i - 7 := by omega
  have e3 : i - 7 < 1 := by omega
  rw [packRequest, BitVec.getLsbD_append, BitVec.getLsbD_append, BitVec.getLsbD_append]
  simp only [e1, e2, e3, if_true]

/-- Bit `j` of lane `k` is bit `8*k + 8 + j` of the request word. -/
theorem getLsbD_packRequest_lane (k : Nat) (hk : k < 7) (j : Nat) (hj : j < 8) :
    (packRequest op arg rsv buf).getLsbD (8 * k + 8 + j) = (buf[k]).getLsbD j := by
  have n1 : ∀ m, ¬ (8 * m + 8 + j < 3) := by omega
  have n2 : ∀ m, ¬ (8 * m + 8 + j - 3 < 4) := by omega
  have n3 : ∀ m, ¬ (8 * m + 8 + j - 3 - 4 < 1) := by omega
  have e : ∀ m, 8 * m + 8 + j - 3 - 4 - 1 = 8 * m + j := by omega
  rw [packRequest, BitVec.getLsbD_append, if_neg (n1 k), BitVec.getLsbD_append, if_neg (n2 k),
    BitVec.getLsbD_append, if_neg (n3 k), e]
  rcases k with _ | _ | _ | _ | _ | _ | _ | k
  case succ.succ.succ.succ.succ.succ.succ => omega
  all_goals
    repeat (first
      | (rw [BitVec.getLsbD_append, if_pos (by omega)])
      | (rw [BitVec.getLsbD_append, if_neg (by omega)]))
    congr 1
    omega

@[simp] theorem reqOp_packRequest : reqOp (packRequest op arg rsv buf) = op := by
  ext i h
  rw [reqOp, BitVec.getElem_extractLsb', Nat.zero_add, getLsbD_packRequest_low _ _ _ _ _ (by omega), if_pos h,
    BitVec.getLsbD_eq_getElem h]

@[simp] theorem reqArg_packRequest : reqArg (packRequest op arg rsv buf) = arg := by
  ext i h
  rw [reqArg, BitVec.getElem_extractLsb', getLsbD_packRequest_low _ _ _ _ _ (by omega), if_neg (by omega),
    if_pos (by omega), Nat.add_sub_cancel_left, BitVec.getLsbD_eq_getElem h]

@[simp] theorem reqRsv_packRequest : reqRsv (packRequest op arg rsv buf) = rsv := by
  ext i h
  rw [reqRsv, BitVec.getElem_extractLsb', getLsbD_packRequest_low _ _ _ _ _ (by omega), if_neg (by omega),
    if_neg (by omega), Nat.add_sub_cancel_left, BitVec.getLsbD_eq_getElem h]

theorem reqLane_packRequest (k : Nat) (hk : k < 7) : reqLane (packRequest op arg rsv buf) k = buf[k] := by
  ext j hj
  rw [reqLane, BitVec.getElem_extractLsb', getLsbD_packRequest_lane _ _ _ _ k hk j hj, BitVec.getLsbD_eq_getElem hj]

end Fields

theorem reqBuf_getElem (q : Word) (k : Nat) (hk : k < 7) : (reqBuf q)[k] = reqLane q k := by
  rcases k with _ | _ | _ | _ | _ | _ | _ | k
  case succ.succ.succ.succ.succ.succ.succ => omega
  all_goals rfl

@[simp] theorem reqBuf_packRequest (op : BitVec 3) (arg : BitVec 4) (rsv : BitVec 1) (buf : Buffer) :
    reqBuf (packRequest op arg rsv buf) = buf := by
  ext k hk : 1
  rw [reqBuf_getElem _ k hk, reqLane_packRequest _ _ _ _ k hk]

/-- A request word is made of its fields. -/
theorem packRequest_fields (q : Word) : packRequest (reqOp q) (reqArg q) (reqRsv q) (reqBuf q) = q := by
  apply BitVec.eq_of_getLsbD_eq
  intro i hi
  rcases Nat.lt_or_ge i 8 with h8 | h8
  · rw [getLsbD_packRequest_low _ _ _ _ _ h8]
    split
    · simp [reqOp, *]
    · split
      · have : 3 + (i - 3) = i := by omega
        have : i - 3 < 4 := by omega
        simp [reqArg, *]
      · have : 7 + (i - 7) = i := by omega
        have : i = 7 := by omega
        subst this
        simp [reqRsv]
  · obtain ⟨k, j, hk, hj, rfl⟩ : ∃ k j, k < 7 ∧ j < 8 ∧ i = 8 * k + 8 + j :=
      ⟨(i - 8) / 8, (i - 8) % 8, by omega, by omega, by omega⟩
    rw [getLsbD_packRequest_lane _ _ _ _ k hk j hj, reqBuf_getElem _ k hk]
    simp [reqLane, hj]

@[simp] theorem Instr.op_ofFields (o : Op) (arg : Nat) (lanes : Buffer) : (Instr.ofFields o arg lanes).op = o := by
  cases o <;> rfl

@[simp] theorem Instr.arg_ofFields (o : Op) (arg : Nat) (lanes : Buffer) :
    (Instr.ofFields o arg lanes).arg = arg := by
  cases o <;> rfl

@[simp] theorem Instr.lanes_ofFields (o : Op) (arg : Nat) (lanes : Buffer) :
    (Instr.ofFields o arg lanes).lanes = lanes := by
  cases o <;> rfl

theorem Instr.ofFields_eta (i : Instr) : Instr.ofFields i.op i.arg i.lanes = i := by cases i <;> rfl

/-- Well-formed is: the `arg` fits its four bits. -/
theorem Instr.wellFormed_iff (i : Instr) : i.wellFormed = true ↔ i.arg < 16 := by
  cases i <;> exact decide_eq_true_iff

/-- A code that selects an operation is that operation's code (30_encoding.md R70). -/
theorem opCode_of_opOfCode (c : BitVec 3) (o : Op) (h : opOfCode c = some o) : opCode o = c := by
  revert h; revert o; revert c; decide

/-- What a decoded word is: no reserved bit, and the instruction of its fields. -/
theorem decode_ok_iff (q : Word) (i : Instr) :
    decode q = .ok i ↔
      reqRsv q = 0 ∧ ∃ o, opOfCode (reqOp q) = some o ∧ i = Instr.ofFields o (reqArg q).toNat (reqBuf q) := by
  have hz : reqRsv q = 0 ∨ reqRsv q = 1 := by generalize reqRsv q = r; revert r; decide
  unfold decode
  rcases hz with hz | hz
  · rw [if_neg (by rw [hz]; decide)]
    cases ho : opOfCode (reqOp q) <;> simp [hz, eq_comm]
  · simp [hz]

/-- What a refused word is: its reserved bit is set, or its code selects nothing (R71, R72). -/
theorem decode_error_iff (q : Word) (e : DecodeError) :
    decode q = .error e ↔
      (reqRsv q = 1 ∧ e = .reservedBitSet) ∨
        (reqRsv q ≠ 1 ∧ opOfCode (reqOp q) = none ∧ e = .illegalOp (reqOp q)) := by
  unfold decode
  by_cases hz : reqRsv q = 1
  · simp [hz, eq_comm]
  · have hz1 : ¬ reqRsv q = 1#1 := hz
    cases ho : opOfCode (reqOp q) <;> simp [hz1, @eq_comm _ e]

end Sys2Proof.Laws
end

