-- ==== Sys2Proof/Laws/Response.lean ====
section
/-! SUPPORT. The fields of a response word (30_encoding.md R63): each accessor of `packResponse` gives the field that
was packed, so no later proof looks at the concatenation again. -/

namespace Sys2Proof.Laws

open Sys2Proof.Machine

/-- A bit of a word is a bit of any field that holds it. -/
theorem getLsbD_of_extractLsb' {n : Nat} (x : BitVec n) (start w i : Nat) (h : i < w) :
    x.getLsbD (start + i) = (x.extractLsb' start w).getLsbD i := by
  simp [h]

section Fields

variable (p : Payload) (kind : BitVec 3) (cause : BitVec 2) (err : BitVec 1)

/-- Every bit of a response word. -/
theorem getLsbD_packResponse (i : Nat) :
    (packResponse p kind cause err).getLsbD i =
      if i < 1 then err.getLsbD i else if i - 1 < 2 then cause.getLsbD (i - 1)
      else if i - 3 < 3 then kind.getLsbD (i - 3) else if i - 6 < 10 then false else p.getLsbD (i - 16) := by
  rw [packResponse, BitVec.getLsbD_append, BitVec.getLsbD_append, BitVec.getLsbD_append, BitVec.getLsbD_append]
  simp [Nat.sub_sub]

@[simp] theorem err_packResponse : (packResponse p kind cause err).extractLsb' 0 1 = err := by
  ext i h
  simp [getLsbD_packResponse, h, ← BitVec.getLsbD_eq_getElem]

@[simp] theorem errBit_packResponse : (packResponse p kind cause err)[0] = err[0] := by
  simp [← BitVec.getLsbD_eq_getElem, getLsbD_packResponse]

@[simp] theorem cause_packResponse : (packResponse p kind cause err).extractLsb' 1 2 = cause := by
  ext i h
  simp [getLsbD_packResponse, h, ← BitVec.getLsbD_eq_getElem]

@[simp] theorem kind_packResponse : (packResponse p kind cause err).extractLsb' 3 3 = kind := by
  ext i h
  rw [BitVec.getElem_extractLsb', getLsbD_packResponse, if_neg (by omega), if_neg (by omega), if_pos (by omega),
    Nat.add_sub_cancel_left, BitVec.getLsbD_eq_getElem h]

/-- Bits 15:6 are 0. -/
theorem zeroBit_packResponse (i : Nat) (h : i < 10) : (packResponse p kind cause err).getLsbD (6 + i) = false := by
  rw [getLsbD_packResponse, if_neg (by omega), if_neg (by omega), if_neg (by omega), if_pos (by omega)]

@[simp] theorem zero_packResponse : (packResponse p kind cause err).extractLsb' 6 10 = 0 := by
  ext i h
  simp [zeroBit_packResponse, h]

/-- Payload bit `k` is bit `16 + k` of the response. -/
theorem payloadBit_packResponse (k : Nat) :
    (packResponse p kind cause err).getLsbD (16 + k) = p.getLsbD k := by
  rw [getLsbD_packResponse, if_neg (by omega), if_neg (by omega), if_neg (by omega), if_neg (by omega),
    Nat.add_sub_cancel_left]

/-- A field of the payload, at its place in the response word. -/
theorem payloadField_packResponse (k w : Nat) :
    (packResponse p kind cause err).extractLsb' (16 + k) w = p.extractLsb' k w := by
  ext i h
  simp [Nat.add_assoc, payloadBit_packResponse]

@[simp] theorem payload_packResponse : (packResponse p kind cause err).extractLsb' 16 48 = p := by
  ext i h
  simp [payloadBit_packResponse, h]

end Fields

theorem successResponse_isSuccess (o : Op) (p : Payload) : IsSuccess (opCode o) (successResponse o p) := by
  simp [IsSuccess, successResponse]

theorem errorResponse_isError (kind : BitVec 3) (c : Cause) :
    IsError kind (causeCode c) (errorResponse kind c) := by
  refine ⟨by simp [errorResponse], by simp [errorResponse], by simp [errorResponse], ?_⟩
  ext i h
  rcases Nat.lt_or_ge i 10 with h10 | h10
  · simp [errorResponse, zeroBit_packResponse, h10]
  · obtain ⟨k, rfl⟩ := Nat.exists_eq_add_of_le h10
    have := payloadBit_packResponse errPayload kind (causeCode c) 1 k
    simpa [errorResponse, errPayload, ← Nat.add_assoc] using this

theorem causeOfCode_causeCode (c : Cause) : causeOfCode (causeCode c) = some c := by cases c <;> rfl

theorem opOfCode_opCode (o : Op) : opOfCode (opCode o) = some o := by cases o <;> rfl

theorem readFields_errorResponse (kind : BitVec 3) (c : Cause) :
    readFields (errorResponse kind c) = some (.err kind c) := by
  simp [readFields, rspErr, rspCause, rspKind, errorResponse, causeOfCode_causeCode]

theorem readFields_successResponse (o : Op) (p : Payload) :
    readFields (successResponse o p) = (Value.ofPayload (opCode o) p).map .ok := by
  simp [readFields, rspErr, rspKind, rspPayload, successResponse]

/-- All that `readReply` can answer: the reply its fields say, of the word that carries exactly that reply. -/
theorem readReply_eq_some_iff (r : Word) (x : Reply) :
    readReply r = some x ↔ readFields r = some x ∧ x.word = r := by
  simp [readReply, Option.filter_eq_some_iff]

theorem readReply_errorResponse (kind : BitVec 3) (c : Cause) :
    readReply (errorResponse kind c) = some (.err kind c) :=
  (readReply_eq_some_iff _ _).2 ⟨readFields_errorResponse kind c, rfl⟩

/-- A success response reads back as its value wherever the payload format does. -/
theorem readReply_successResponse (v : Value) (h : Value.ofPayload (opCode v.op) v.payload = some v) :
    readReply (successResponse v.op v.payload) = some (.ok v) :=
  (readReply_eq_some_iff _ _).2 ⟨by rw [readFields_successResponse, h]; rfl, rfl⟩

end Sys2Proof.Laws
end

