-- ==== Sys2Proof/Laws/Exec.lean ====
section
/-! SUPPORT. What each shared operation and each meaning can do, said once: later proofs cite these and unfold
neither. -/

namespace Sys2Proof.Laws

open Sys2Proof.Machine

theorem succeed_eq (o : Op) (p : Payload) (s : State) : succeed o p s = .next (s.respond (successResponse o p)) := rfl

theorem raise_eq (kind : BitVec 3) (c : Cause) (s : State) : raise kind c s = .next (s.respond (errorResponse kind c)) := rfl

theorem guardLen_short {d : Decoder} {len : Nat} (h : len < need d) (s : State) (body : Result) :
    guardLen d len s body = .next (s.respond (errorResponse (opCode d.op) .errLen)) := by
  rw [guardLen, if_pos h, raise_eq]

theorem guardLen_enough {d : Decoder} {len : Nat} (h : need d ≤ len) (s : State) (body : Result) :
    guardLen d len s body = body := by
  rw [guardLen, if_neg (Nat.not_lt.mpr h)]

/-- The map has an entry exactly for the indexes 0 to 9. -/
theorem lookup_of_lt (grp : Nat) (h : grp < 10) : lookup grp = some (rom[grp]).entry := by
  simp [lookup, h]

theorem lookup_of_ge (grp : Nat) (h : 10 ≤ grp) : lookup grp = none := by
  simp [lookup, h]

theorem execMaprd_of_lt (grp : Nat) (s : State) (h : grp < 10) :
    execMaprd grp s = .next (s.respond (successResponse .maprd (rom[grp]).entry.payload)) := by
  rw [execMaprd, lookup_of_lt grp h]; rfl

theorem execMaprd_of_ge (grp : Nat) (s : State) (h : 10 ≤ grp) :
    execMaprd grp s = .next (s.respond (errorResponse (opCode .maprd) .errGrp)) := by
  rw [execMaprd, lookup_of_ge grp h]; rfl

theorem execDstat_enough (len : Nat) (buf : Buffer) (s : State) (h : 1 ≤ len) :
    execDstat len buf s = .next (s.respond (successResponse .dstat (statusFlags buf[0]).payload)) :=
  guardLen_enough (d := .dstat) h s _

theorem execDpmu_enough (len : Nat) (buf : Buffer) (s : State) (h : 1 ≤ len) :
    execDpmu len buf s = .next (s.respond (successResponse .dpmu (powerMode buf[0]).payload)) :=
  guardLen_enough (d := .dpmu) h s _

theorem execDint_enough (len : Nat) (buf : Buffer) (s : State) (h : 3 ≤ len) :
    execDint len buf s =
      .next (s.respond (successResponse .dint (interruptFlags buf[0] buf[1] buf[2]).payload)) :=
  guardLen_enough (d := .dint) h s _

theorem execDsmp_enough (len : Nat) (buf : Buffer) (s : State) (h : 6 ≤ len) :
    execDsmp len buf s = .next (s.respond (successResponse .dsmp (sensorSample buf).payload)) :=
  guardLen_enough (d := .dsmp) h s _

theorem execDstat_short (len : Nat) (buf : Buffer) (s : State) (h : len < 1) :
    execDstat len buf s = .next (s.respond (errorResponse 1 .errLen)) :=
  guardLen_short (d := .dstat) h s _

theorem execDpmu_short (len : Nat) (buf : Buffer) (s : State) (h : len < 1) :
    execDpmu len buf s = .next (s.respond (errorResponse 2 .errLen)) :=
  guardLen_short (d := .dpmu) h s _

theorem execDint_short (len : Nat) (buf : Buffer) (s : State) (h : len < 3) :
    execDint len buf s = .next (s.respond (errorResponse 3 .errLen)) :=
  guardLen_short (d := .dint) h s _

theorem execDsmp_short (len : Nat) (buf : Buffer) (s : State) (h : len < 6) :
    execDsmp len buf s = .next (s.respond (errorResponse 4 .errLen)) :=
  guardLen_short (d := .dsmp) h s _

/-- All an instruction can do: it drives `RSP` with the response of a typed value of its operation, or with an error
response that carries its operation code, and which of them does not depend on the state. -/
theorem exec_cases (i : Instr) :
    (∃ v : Value, v.op = i.op ∧ ∀ s, exec i s = .next (s.respond (successResponse i.op v.payload))) ∨
    (∃ c : Cause, ∀ s, exec i s = .next (s.respond (errorResponse (opCode i.op) c))) := by
  cases i with
  | maprd grp lanes =>
    rcases Nat.lt_or_ge grp 10 with h | h
    · exact .inl ⟨.mapEntry (rom[grp]).entry, rfl, fun s => execMaprd_of_lt grp s h⟩
    · exact .inr ⟨.errGrp, fun s => execMaprd_of_ge grp s h⟩
  | dstat len buf =>
    rcases Nat.lt_or_ge len 1 with h | h
    · exact .inr ⟨.errLen, fun s => execDstat_short len buf s h⟩
    · exact .inl ⟨.status (statusFlags buf[0]), rfl, fun s => execDstat_enough len buf s h⟩
  | dpmu len buf =>
    rcases Nat.lt_or_ge len 1 with h | h
    · exact .inr ⟨.errLen, fun s => execDpmu_short len buf s h⟩
    · exact .inl ⟨.powerMode (powerMode buf[0]), rfl, fun s => execDpmu_enough len buf s h⟩
  | dint len buf =>
    rcases Nat.lt_or_ge len 3 with h | h
    · exact .inr ⟨.errLen, fun s => execDint_short len buf s h⟩
    · exact .inl ⟨.interrupts (interruptFlags buf[0] buf[1] buf[2]), rfl, fun s => execDint_enough len buf s h⟩
  | dsmp len buf =>
    rcases Nat.lt_or_ge len 6 with h | h
    · exact .inr ⟨.errLen, fun s => execDsmp_short len buf s h⟩
    · exact .inl ⟨.sample (sensorSample buf), rfl, fun s => execDsmp_enough len buf s h⟩

theorem step_of_ok {s : State} {i : Instr} (h : decode s.req = .ok i) : step s = exec i s := by
  rw [step, h]

/-- A refused word is answered with ERR_OP and its own `op` (30_encoding.md R71, R72). -/
theorem step_of_error {s : State} {e : DecodeError} (h : decode s.req = .error e) :
    step s = .next (s.respond (errorResponse (reqOp s.req) .errOp)) := by
  rw [step, h]
  rcases (decode_error_iff _ _).mp h with ⟨_, rfl⟩ | ⟨_, _, rfl⟩ <;> rfl

/-- All a step can do, by what is on `REQ`. The response does not depend on `RSP`. -/
theorem step_cases (q : Word) :
    (∃ (i : Instr) (v : Value), decode q = .ok i ∧ v.op = i.op ∧
      ∀ s : State, s.req = q → step s = .next (s.respond (successResponse i.op v.payload))) ∨
    (∃ c, ∀ s : State, s.req = q → step s = .next (s.respond (errorResponse (reqOp q) c))) := by
  cases h : decode q with
  | error e => exact .inr ⟨.errOp, fun s hs => by subst hs; exact step_of_error h⟩
  | ok i =>
    obtain ⟨_, o, ho, hi⟩ := (decode_ok_iff q i).mp h
    have hop : opCode i.op = reqOp q := by
      rw [hi, Instr.op_ofFields]; exact opCode_of_opOfCode _ _ ho
    rcases exec_cases i with ⟨v, hv, hx⟩ | ⟨c, hx⟩
    · exact .inl ⟨i, v, rfl, hv, fun s hs => by subst hs; rw [step_of_ok h, hx]⟩
    · exact .inr ⟨c, fun s hs => by subst hs; rw [step_of_ok h, hx, hop]⟩

/-- One more step of a run, of any machine behind the host's interface. -/
theorem run_succ_of_next (M : Host.Core) (k : Nat) (s t : M.State) (h : M.step s = .next t) :
    M.run (k + 1) s = M.run k t := by
  rw [Host.Core.run.eq_def]
  simp only [h]

/-- One more step of a run of this machine. -/
theorem core_run_succ (k : Nat) (s t : State) (h : step s = .next t) : core.run (k + 1) s = core.run k t :=
  run_succ_of_next core k s t h

end Sys2Proof.Laws
end

