-- ==== Sys2Proof/Laws/Payload.lean ====
section
/-! SUPPORT. The bits of each payload format (30_encoding.md R64 to R68) and of the wire forms of
Machine/Reference.lean, one lemma a definition. -/

namespace Sys2Proof.Laws

open Sys2Proof.Machine

/-- Flag `k` of the list is payload bit `k`; above the list every bit is 0 (R64, R66). -/
theorem getLsbD_flagsPayload (flags : List Bool) (k : Nat) (h : k < 48) :
    (flagsPayload flags).getLsbD k = flags.getD k false := by
  simp [flagsPayload, h, BitVec.getLsbD_ofBoolListLE]

/-- Every bit of a DPMU payload (R65). -/
theorem getLsbD_powerPayload (v : PowerMode) (k : Nat) :
    v.payload.getLsbD k =
      if k < 2 then v.accMode.code.getLsbD k else if k - 2 < 2 then v.gyrMode.code.getLsbD (k - 2)
      else if k - 4 < 2 then v.magMode.code.getLsbD (k - 4) else if k - 6 < 1 then v.accFb
      else if k - 7 < 1 then v.magFb else false := by
  rw [PowerMode.payload, BitVec.getLsbD_append, BitVec.getLsbD_append, BitVec.getLsbD_append, BitVec.getLsbD_append,
    BitVec.getLsbD_append]
  simp only [Nat.sub_sub]
  by_cases h6 : k - 6 < 1 <;> by_cases h7 : k - 7 < 1 <;> simp [h6, h7]

/-- Every bit of a DSMP payload (R67). -/
theorem getLsbD_samplePayload (v : SensorSample) (k : Nat) :
    v.payload.getLsbD k =
      if k < 16 then v.x.getLsbD k else if k - 16 < 16 then v.y.getLsbD (k - 16) else v.z.getLsbD (k - 32) := by
  rw [SensorSample.payload, BitVec.getLsbD_append, BitVec.getLsbD_append]
  simp only [Nat.sub_sub]

/-- Every bit of a MAPRD payload (R68). -/
theorem getLsbD_mapPayload (e : MapEntry) (k : Nat) :
    e.payload.getLsbD k =
      if k < 8 then e.base.getLsbD k else if k - 8 < 4 then e.span.getLsbD (k - 8)
      else if k - 12 < 3 then (decCode e.dec).getLsbD (k - 12) else if k - 15 < 1 then e.wo else false := by
  rw [MapEntry.payload, BitVec.getLsbD_append, BitVec.getLsbD_append, BitVec.getLsbD_append, BitVec.getLsbD_append]
  simp only [Nat.sub_sub]
  by_cases h15 : k - 15 < 1 <;> simp [h15]

/-- Every bit of an axis word: the low byte, then the high byte (R44, R131). -/
theorem getLsbD_axisWord (low high : Byte) (k : Nat) (h : k < 16) :
    (axisWord low high).getLsbD k = if k < 8 then low.getLsbD k else high.getLsbD (k - 8) := by
  by_cases h8 : k < 8
  · simp [axisWord, h, h8]
  · simp [axisWord, h, h8, Nat.not_lt.mp h8]

theorem wireOk_eq (op : BitVec 3) (p : Payload) : wireOk op p = packResponse p op 0 0 := rfl

theorem wireErr_eq (op : BitVec 3) (cause : BitVec 2) : wireErr op cause = packResponse 0 op cause 1 := rfl

end Sys2Proof.Laws
end

