-- ==== Sys2Proof/Laws/PerInstr.lean ====
section
/-! SUPPORT. Statements made of every instruction, one lemma per constructor. `MaskMatch`: the encoding of an
instruction matches its row of spec/opcode_table.json (mask 0x87) and no other. -/

namespace Sys2Proof.Laws.MaskMatch

open Sys2Proof.Machine

/-- The word of `i` matches the row of `i.op`, and only that one (30_encoding.md R70). -/
def Statement (i : Instr) : Prop := ∀ o : Op, encode i &&& selectMask = selectMatch o ↔ o = i.op

/-- The masked word is the operation code alone: `rsv` of an encoded instruction is 0. -/
theorem masked_packRequest (op : BitVec 3) (arg : BitVec 4) (buf : Buffer) :
    packRequest op arg 0 buf &&& selectMask = op.setWidth 64 := by
  apply BitVec.eq_of_getLsbD_eq
  intro k hk
  rw [BitVec.getLsbD_and]
  rcases Nat.lt_or_ge k 8 with h8 | h8
  · rw [getLsbD_packRequest_low _ _ _ _ _ h8]
    interval_cases k <;> simp [selectMask]
  · have hm : selectMask.getLsbD k = false := by interval_cases k <;> rfl
    have ho : op.getLsbD k = false := BitVec.getLsbD_of_ge _ _ (by omega)
    rw [hm, Bool.and_false, BitVec.getLsbD_setWidth, ho, Bool.and_false]

theorem of_op (i : Instr) : Statement i := by
  intro o
  rw [encode, masked_packRequest]
  generalize i.op = p
  cases o <;> cases p <;> decide

theorem maprd (grp : Nat) (lanes : Buffer) : Statement (.maprd grp lanes) := of_op _
theorem dstat (len : Nat) (buf : Buffer) : Statement (.dstat len buf) := of_op _
theorem dpmu (len : Nat) (buf : Buffer) : Statement (.dpmu len buf) := of_op _
theorem dint (len : Nat) (buf : Buffer) : Statement (.dint len buf) := of_op _
theorem dsmp (len : Nat) (buf : Buffer) : Statement (.dsmp len buf) := of_op _

end Sys2Proof.Laws.MaskMatch
end

