-- ==== Sys2Proof/Laws/Wire.lean ====
section
/-! SUPPORT. The typed payload of each decoder is the wire form its rule gives (41 R100, 42 R110, 43 R120, 44 R130),
and each typed value is read back from its payload (30_encoding.md R64 to R68). -/

namespace Sys2Proof.Laws

open Sys2Proof.Machine

/-! ### Payload against wire form -/

theorem statusPayload_eq_wire (q : Word) : (statusFlags (reqBuf q)[0]).payload = wireStatus q := by
  apply BitVec.eq_of_getLsbD_eq
  intro k hk
  rw [Status.payload, getLsbD_flagsPayload _ _ hk, reqBuf_getElem q 0 (by omega)]
  unfold wireStatus
  iterate 7 rw [BitVec.getLsbD_append]
  simp only [statusFlags, Status.flags, reqLane]
  rcases Nat.lt_or_ge k 7 with h | h
  · interval_cases k <;> simp
  · iterate 7 rw [if_neg (by omega)]
    rw [List.getD_eq_default]
    · simp
    · simpa using h

/-- The wire form of R110, byte by byte: 256 cases. -/
theorem powerPayload_of_byte (b : Byte) :
    (powerMode b).payload =
      0#40 ++ (b.extractLsb' 1 1 &&& b.extractLsb' 0 1) ++ (b.extractLsb' 5 1 &&& b.extractLsb' 4 1) ++
        wireAccMag (b.extractLsb' 0 2) ++ b.extractLsb' 2 2 ++ wireAccMag (b.extractLsb' 4 2) := by
  revert b; decide

/-- A field of lane 0 is a field of the request. -/
theorem lane0_field (q : Word) (start w : Nat) (h : start + w ≤ 8) :
    (reqLane q 0).extractLsb' start w = q.extractLsb' (8 + start) w := by
  ext i hi
  simp [reqLane, Nat.add_assoc]
  omega

theorem powerPayload_eq_wire (q : Word) : (powerMode (reqBuf q)[0]).payload = wirePower q := by
  rw [reqBuf_getElem q 0 (by omega), powerPayload_of_byte]
  iterate 7 rw [lane0_field _ _ _ (by omega)]
  rfl

theorem interruptPayload_eq_wire (q : Word) :
    (interruptFlags (reqBuf q)[0] (reqBuf q)[1] (reqBuf q)[2]).payload = wireInterrupts q := by
  apply BitVec.eq_of_getLsbD_eq
  intro k hk
  rw [Interrupts.payload, getLsbD_flagsPayload _ _ hk, reqBuf_getElem q 0 (by omega), reqBuf_getElem q 1 (by omega),
    reqBuf_getElem q 2 (by omega)]
  unfold wireInterrupts
  iterate 4 rw [BitVec.getLsbD_append]
  simp only [interruptFlags, Interrupts.flags, reqLane]
  rcases Nat.lt_or_ge k 18 with h | h
  · interval_cases k <;> simp
  · iterate 4 rw [if_neg (by omega)]
    rw [List.getD_eq_default]
    · simp
    · simpa using h

/-- On the wires the payload of DSMP is the six bytes in order (R130). -/
theorem samplePayload_byte (buf : Buffer) (i : Nat) (h : i < 6) :
    (sensorSample buf).payload.extractLsb' (8 * i) 8 = buf[i] := by
  ext j hj
  rw [BitVec.getElem_extractLsb', getLsbD_samplePayload, ← BitVec.getLsbD_eq_getElem]
  simp only [sensorSample]
  interval_cases i <;>
  · first
      | rw [if_pos (by omega)]
      | rw [if_neg (by omega), if_pos (by omega)]
      | rw [if_neg (by omega), if_neg (by omega)]
    rw [getLsbD_axisWord _ _ _ (by omega)]
    first
      | rw [if_pos (by omega)]; congr 1; omega
      | rw [if_neg (by omega)]; congr 1; omega

theorem samplePayload_eq_wire (q : Word) : (sensorSample (reqBuf q)).payload = wireSample q := by
  apply BitVec.eq_of_getLsbD_eq
  intro k hk
  obtain ⟨i, j, hi, hj, rfl⟩ : ∃ i j, i < 6 ∧ j < 8 ∧ k = 8 * i + j := ⟨k / 8, k % 8, by omega, by omega, by omega⟩
  rw [getLsbD_of_extractLsb' _ _ 8 j hj, samplePayload_byte _ _ hi, reqBuf_getElem q i (by omega)]
  have e : 8 * i + 8 + j = 8 + (8 * i + j) := by omega
  simp [wireSample, reqLane, hj, hk, e]

theorem mapPayload_eq_wire : ∀ grp (h : grp < 10), (rom[grp]).entry.payload = wireMap.getD grp 0 := by decide

/-! ### Reading a payload back -/

theorem Status.ofPayload_payload (v : Status) : Status.ofPayload v.payload = v := by
  simp only [Status.ofPayload, Status.payload]
  iterate 7 rw [getLsbD_flagsPayload _ _ (by omega)]
  rfl

theorem PowerMode.ofPayload_payload (v : PowerMode) : PowerMode.ofPayload v.payload = some v := by
  rcases v with ⟨acc, gyr, mag, accFb, magFb⟩
  cases acc <;> cases gyr <;> cases mag <;> cases accFb <;> cases magFb <;> rfl

theorem Interrupts.ofPayload_payload (v : Interrupts) : Interrupts.ofPayload v.payload = v := by
  simp only [Interrupts.ofPayload, Interrupts.payload]
  iterate 18 rw [getLsbD_flagsPayload _ _ (by omega)]
  rfl

theorem SensorSample.ofPayload_payload (v : SensorSample) : SensorSample.ofPayload v.payload = v := by
  have hx : v.payload.extractLsb' 0 16 = v.x := by
    ext i h
    rw [BitVec.getElem_extractLsb', getLsbD_samplePayload, if_pos (by omega), Nat.zero_add, BitVec.getLsbD_eq_getElem h]
  have hy : v.payload.extractLsb' 16 16 = v.y := by
    ext i h
    rw [BitVec.getElem_extractLsb', getLsbD_samplePayload, if_neg (by omega), if_pos (by omega),
      Nat.add_sub_cancel_left, BitVec.getLsbD_eq_getElem h]
  have hz : v.payload.extractLsb' 32 16 = v.z := by
    ext i h
    rw [BitVec.getElem_extractLsb', getLsbD_samplePayload, if_neg (by omega), if_neg (by omega),
      Nat.add_sub_cancel_left, BitVec.getLsbD_eq_getElem h]
  simp [SensorSample.ofPayload, hx, hy, hz]

theorem decOfCode_decCode (d : Option Decoder) : decOfCode (decCode d) = some d := by
  cases d with
  | none => rfl
  | some d => cases d <;> rfl

theorem MapEntry.ofPayload_payload (e : MapEntry) : MapEntry.ofPayload e.payload = some e := by
  have hbase : e.payload.extractLsb' 0 8 = e.base := by
    ext i h
    rw [BitVec.getElem_extractLsb', getLsbD_mapPayload, if_pos (by omega), Nat.zero_add, BitVec.getLsbD_eq_getElem h]
  have hspan : e.payload.extractLsb' 8 4 = e.span := by
    ext i h
    rw [BitVec.getElem_extractLsb', getLsbD_mapPayload, if_neg (by omega), if_pos (by omega),
      Nat.add_sub_cancel_left, BitVec.getLsbD_eq_getElem h]
  have hdec : e.payload.extractLsb' 12 3 = decCode e.dec := by
    ext i h
    rw [BitVec.getElem_extractLsb', getLsbD_mapPayload, if_neg (by omega), if_neg (by omega), if_pos (by omega),
      Nat.add_sub_cancel_left, BitVec.getLsbD_eq_getElem h]
  have hwo : e.payload.getLsbD 15 = e.wo := by
    rw [getLsbD_mapPayload]; simp
  simp only [MapEntry.ofPayload, hbase, hspan, hdec, hwo, decOfCode_decCode]
  rfl

end Sys2Proof.Laws
end

