-- ==== Sys2Proof/Tests/Slice0.lean ====
section
/-! SUPPORT. The model's own tests. Expected words come from spec/95_test_vectors.md (the vector's part is named) or
are written out bit by bit from the table of 30_encoding.md R60. `witness_` theorems show a state and operands that
meet the hypotheses of the statement they name, one for each clause at the boundary of its range. -/

namespace Sys2Proof.Tests

open Sys2Proof.Machine

/-- The state an outcome goes on in. -/
def nextOf : Result → Option State
  | .next t => some t
  | .fault _ => none
  | .refused _ => none

/-- A state with this request on `REQ` and a stale response on `RSP`. -/
def at_ (q : Word) : State := { req := q, rsp := 0xFFFFFFFFFFFFFFFF }

/-- A buffer of these first bytes, the other lanes 0xEE. -/
def buf3 (b0 b1 b2 : Byte) : Buffer := #v[b0, b1, b2, 0xEE, 0xEE, 0xEE, 0xEE]

/-! ### WellFormed: an ill-formed term for each check -/

theorem test_illFormed_maprd : (Instr.maprd 16 (buf3 0 0 0)).wellFormed = false := by decide
theorem test_illFormed_dstat : (Instr.dstat 16 (buf3 0 0 0)).wellFormed = false := by decide
theorem test_illFormed_dpmu : (Instr.dpmu 16 (buf3 0 0 0)).wellFormed = false := by decide
theorem test_illFormed_dint : (Instr.dint 16 (buf3 0 0 0)).wellFormed = false := by decide
theorem test_illFormed_dsmp : (Instr.dsmp 16 (buf3 0 0 0)).wellFormed = false := by decide
theorem test_illFormed_text : (TextRequest.dint (List.replicate 16 0)).wellFormed = false := by decide
theorem test_illFormed_textGroup : (TextRequest.maprd (.index 16)).wellFormed = false := by decide

/-! ### Decode and encode: words written out from R60 -/

theorem test_decode_maprd :
    decode 0b00000000_00000000_00000000_00000000_00000000_00000000_00000000_0_1001_000#64
      = .ok (.maprd 9 #v[0, 0, 0, 0, 0, 0, 0]) := by decide
theorem test_decode_dstat :
    decode 0b00000000_00000000_00000000_00000000_00000000_11111111_10000000_0_0010_001#64
      = .ok (.dstat 2 #v[0x80, 0xFF, 0, 0, 0, 0, 0]) := by decide
theorem test_decode_dpmu :
    decode 0b00000000_00000000_00000000_00000000_00000000_00000000_00111001_0_0001_010#64
      = .ok (.dpmu 1 #v[0x39, 0, 0, 0, 0, 0, 0]) := by decide
theorem test_decode_dint :
    decode 0b00000000_00000000_00000000_00000000_00001111_01111111_11110111_0_0011_011#64
      = .ok (.dint 3 #v[0xF7, 0x7F, 0x0F, 0, 0, 0, 0]) := by decide
theorem test_decode_dsmp :
    decode 0b10011001_00000001_00000000_11101101_11001100_00010010_00110100_0_1111_100#64
      = .ok (.dsmp 15 #v[0x34, 0x12, 0xCC, 0xED, 0x00, 0x01, 0x99]) := by decide
theorem test_decode_illegalOp : decode 0x0000000000000006 = .error (.illegalOp 6) := by decide
theorem test_decode_reservedBit : decode 0x00000000000000E0 = .error .reservedBitSet := by decide
theorem test_encode_dsmp :
    encode (.dsmp 7 #v[0x34, 0x12, 0xCC, 0xED, 0x00, 0x01, 0x99]) = 0x990100EDCC12343C := by decide
theorem test_decodeTableWord_short : decodeTableWord 8 0x28 = some (.maprd 5 #v[0, 0, 0, 0, 0, 0, 0]) := by decide

/-! ### One transaction, vectors of spec/95_test_vectors.md -/

/-- Part 2.1, MAPRD MAG with every lane 0xAA. -/
theorem test_maprd_mag : response (at_ 0xAAAAAAAAAAAAAA18) = some 0x0000000047040000 := by decide
/-- Part 2.1, MAPRD 10. -/
theorem test_maprd_10 : response (at_ 0x0000000000000050) = some 0x0000000000000007 := by decide
/-- Part 2.2, 0xA5. -/
theorem test_dstat_a5 : response (at_ 0x000000000000A509) = some 0x0000000000250008 := by decide
/-- Part 2.2, `DSTAT []` with 0x80 in lane 0. -/
theorem test_dstat_empty : response (at_ 0x0000000000008001) = some 0x000000000000000B := by decide
/-- Part 2.3, 0x39: fallback, Reserved, Normal. -/
theorem test_dpmu_39 : response (at_ 0x000000000000390A) = some 0x0000000000590010 := by decide
/-- Part 2.3, 0x24 shows the field order. -/
theorem test_dpmu_24 : response (at_ 0x000000000000240A) = some 0x0000000000060010 := by decide
/-- Part 2.4, [0x25, 0x12, 0x0A]. -/
theorem test_dint_mixed : response (at_ 0x000000000A12251B) = some 0x0000000289150018 := by decide
/-- Part 2.4, two bytes with lane 2 holding 0xFF. -/
theorem test_dint_short : response (at_ 0x00000000FF000113) = some 0x000000000000001B := by decide
/-- Part 2.5, 4660, -4660, 256. -/
theorem test_dsmp_words : response (at_ 0x000100EDCC123434) = some 0x0100EDCC12340020 := by decide
/-- Part 2.5, the same words read back as signed. -/
theorem test_dsmp_signed :
    (sint16 0x1234, sint16 0xEDCC, sint16 0x0100, sint16 0x8001) = (4660, -4660, 256, -32767) := by decide
/-- Part 2.6, op 5. -/
theorem test_illegal_op5 : response (at_ 0x0000000000000005) = some 0x000000000000002D := by decide
/-- Part 2.6, MAPRD 12 with `rsv = 1`: ERR_OP wins over ERR_GRP. -/
theorem test_rsv_over_grp : response (at_ 0x00000000000000E0) = some 0x0000000000000005 := by decide
/-- Part 2.6, DSMP with `len = 5` and `rsv = 1`: ERR_OP wins over ERR_LEN. -/
theorem test_rsv_over_len : response (at_ 0x00000101010101AC) = some 0x0000000000000025 := by decide
/-- Part 3, program 3: the error of the first request leaves no trace in the second. -/
theorem test_program3 :
    serve State.reset [0x0000000000122513, 0x000000000A12251B] = some [0x000000000000001B, 0x0000000289150018] := by
  decide
/-- The first instruction after power-up is the one placed on `REQ`. -/
theorem test_withFetchWord :
    nextOf (step (State.reset.withFetchWord 64 0x0000000000008009)) = some ⟨0x0000000000008009, 0x0000000000010008⟩ := by
  decide
/-- Part 2.3, 0x3F read back: both fallback flags, FastStartUp. -/
theorem test_readReply_dpmu :
    readReply 0x0000000000DD0010 = some (.ok (.powerMode ⟨.normal, .fastStartUp, .normal, true, true⟩)) := by decide
/-- A response word is read as an error by its `err` bit (R168). -/
theorem test_readReply_error : readReply 0x0000000000000007 = some (.err 0 .errGrp) := by decide
/-- The counts of 00_scope.md R4. -/
theorem test_counts :
    rom.toList.length = 10 ∧ (statusFlags 0).flags.length = 7 ∧ (interruptFlags 0 0 0).flags.length = 18 := by decide

/-- Two words the block never sends, by log entry 10: `err` 0 with a cause, and an entry that is not in the map. -/
theorem test_readReply_noResponse :
    readReply 0x0000000000000002 = none ∧ readReply 0x0000000001FF0000 = some (.ok (.mapEntry ⟨0xFF, 1, none, false⟩)) := by
  decide

/-! ### Witnesses of the statements' hypotheses -/

theorem witness_DecodeOfEncode :
    (Instr.maprd 0 (buf3 1 2 3)).wellFormed = true ∧ (Instr.dsmp 15 (buf3 1 2 3)).wellFormed = true := by decide

/-- Also of `DecodedFieldsAreTheBitsOfTheFormat`. -/
theorem witness_EncodeOfDecode : decode 0x990100EDCC12347C = .ok (.dsmp 15 #v[0x34, 0x12, 0xCC, 0xED, 0, 1, 0x99]) := by
  decide

theorem witness_CanonicalRequests :
    ([] : List Byte).length ≤ 15 ∧ (List.replicate 15 (0xA5 : Byte)).length ≤ 15 ∧
      (TextRequest.maprd (.index 15)).wellFormed = true ∧ (TextRequest.maprd (.name .cmd)).wellFormed = true := by decide

theorem witness_StepRuns :
    decode (at_ 0x0000000000008009).req = .ok (.dstat 1 #v[0x80, 0, 0, 0, 0, 0, 0]) ∧
      (Instr.dint 3 (buf3 1 2 3)).wellFormed = true := by decide

/-- A step that answers, for every statement about `step s = .next t`: one for each value of `cause`. -/
theorem witness_stepAnswers :
    nextOf (step (at_ 0x48)) = some ⟨0x48, 0x00000000817E0000⟩ ∧ nextOf (step (at_ 0x01)) = some ⟨0x01, 0x0B⟩ ∧
      nextOf (step (at_ 0x80)) = some ⟨0x80, 0x05⟩ ∧ nextOf (step (at_ 0x50)) = some ⟨0x50, 0x07⟩ := by decide

/-- The bounds of ERR_LEN in `CauseCodesSayExactlyWhatIsWrong`: the longest short buffer and the shortest long one. -/
theorem witness_ErrLenBounds :
    (rspCause <$> response (at_ 0x02)) = some 1 ∧ (rspCause <$> response (at_ 0x0A)) = some 0 ∧
      (rspCause <$> response (at_ 0x13)) = some 1 ∧ (rspCause <$> response (at_ 0x1B)) = some 0 ∧
      (rspCause <$> response (at_ 0x2C)) = some 1 ∧ (rspCause <$> response (at_ 0x34)) = some 0 := by decide

theorem witness_Sequences :
    response (State.reset.present 0x0000000000008009) = some 0x0000000000010008 ∧
      [(0x05 : Word), 0x48].Perm [0x48, 0x05] := by decide

theorem witness_InstructionsChangeOnlyTheResponsePort :
    nextOf (exec (.dstat 1 (buf3 0x80 0 0)) (at_ 7)) = some ⟨7, 0x0000000000010008⟩ := by decide

theorem witness_IllegalOperationCodes :
    (at_ 0x05).req.extractLsb' 0 3 = 5 ∧ (at_ 0x7E).req.extractLsb' 0 3 = 6 ∧ (at_ 0xFF).req.extractLsb' 0 3 = 7 := by
  decide

/-- For the ERR_OP clause of each operation's rule as well: `rsv` set, codes 0 to 4. -/
theorem witness_ReservedBit :
    (at_ 0x80).req.getLsbD 7 = true ∧ (at_ 0x80).req.extractLsb' 0 3 = 0 ∧
      (at_ 0x89).req.getLsbD 7 = true ∧ (at_ 0x89).req.extractLsb' 0 3 = 1 ∧
      (at_ 0x8A).req.getLsbD 7 = true ∧ (at_ 0x8A).req.extractLsb' 0 3 = 2 ∧
      (at_ 0x9B).req.getLsbD 7 = true ∧ (at_ 0x9B).req.extractLsb' 0 3 = 3 ∧
      (at_ 0xB4).req.getLsbD 7 = true ∧ (at_ 0xB4).req.extractLsb' 0 3 = 4 := by decide

theorem witness_GroupsTenToFifteen :
    10 ≤ 10 ∧ 10 ≤ 15 ∧ (at_ 0x50).req.getLsbD 7 = false ∧ (at_ 0x50).req.extractLsb' 0 3 = 0 ∧
      10 ≤ ((at_ 0x50).req.extractLsb' 3 4).toNat ∧ 10 ≤ ((at_ 0x78).req.extractLsb' 3 4).toNat := by decide

/-- The bounds of `len` in the operation rules, `UndersizedBuffersAnswerErrLen` and
`LongBuffersAreDecodedFromTheirFirstBytes`, at the outcome: the last `len` that fails, the first that succeeds. -/
theorem witness_lenBounds :
    nextOf (exec (.dstat 0 (buf3 0xFF 0 0)) (at_ 0)) = some ⟨0, 0x0B⟩ ∧
      nextOf (exec (.dstat 1 (buf3 0xFF 0 0)) (at_ 0)) = some ⟨0, 0x7F0008⟩ ∧
      nextOf (exec (.dpmu 0 (buf3 0x3F 0 0)) (at_ 0)) = some ⟨0, 0x13⟩ ∧
      nextOf (exec (.dpmu 1 (buf3 0x3F 0 0)) (at_ 0)) = some ⟨0, 0xDD0010⟩ ∧
      nextOf (exec (.dint 2 (buf3 1 0 0)) (at_ 0)) = some ⟨0, 0x1B⟩ ∧
      nextOf (exec (.dint 3 (buf3 1 0 0)) (at_ 0)) = some ⟨0, 0x10018⟩ ∧
      nextOf (exec (.dsmp 5 #v[0, 0x80, 0, 0, 0, 0, 9]) (at_ 0)) = some ⟨0, 0x23⟩ ∧
      nextOf (exec (.dsmp 6 #v[0, 0x80, 0, 0, 0, 0, 9]) (at_ 0)) = some ⟨0, 0x80000020⟩ := by decide

theorem witness_MaprdEntry : 0 < 10 ∧ 9 < 10 ∧ (rom[9]).entry.wo = true := by decide

theorem witness_MapSpans : (rom[3]).entry.dec = some .dsmp ∧ (rom[3]).name = .mag ∧ (rom[7]).entry.dec = some .dstat := by
  decide

theorem witness_DpmuModes :
    (buf3 0xF9 0 0)[0].extractLsb' 4 2 = 0b11 ∧ (buf3 0xF9 0 0)[0].extractLsb' 2 2 = 0b10 ∧
      (buf3 0xF9 0 0)[0].extractLsb' 0 2 = 0b01 := by decide

/-- `rsv` clear, codes 0 to 4: the clause on the operands and the encoding of each operation's rule. -/
theorem witness_operandClauses :
    (at_ 0x48).req.extractLsb' 0 3 = 0 ∧ (at_ 0x48).req.getLsbD 7 = false ∧
      (at_ 0x09).req.extractLsb' 0 3 = 1 ∧ (at_ 0x09).req.getLsbD 7 = false ∧
      (at_ 0x0A).req.extractLsb' 0 3 = 2 ∧ (at_ 0x0A).req.getLsbD 7 = false ∧
      (at_ 0x1B).req.extractLsb' 0 3 = 3 ∧ (at_ 0x1B).req.getLsbD 7 = false ∧
      (at_ 0x34).req.extractLsb' 0 3 = 4 ∧ (at_ 0x34).req.getLsbD 7 = false := by decide

theorem witness_FallbackCode :
    (at_ 0x000000000000300A).req.extractLsb' 0 3 = 2 ∧
      nextOf (step (at_ 0x000000000000300A)) = some ⟨0x000000000000300A, 0x0000000000410010⟩ := by decide

theorem witness_LongBuffers :
    (buf3 1 2 3)[0] = (#v[1, 2, 3, 4, 5, 6, 7] : Buffer)[0] ∧
      (∀ i (h : i < 3), (buf3 1 2 3)[i] = (#v[1, 2, 3, 4, 5, 6, 7] : Buffer)[i]) ∧
      ∀ i (h : i < 6), (#v[1, 2, 3, 4, 5, 6, 8] : Buffer)[i] = (#v[1, 2, 3, 4, 5, 6, 7] : Buffer)[i] := by decide

theorem witness_LengthsEightToFifteen :
    (at_ 0x41).req.getLsbD 7 = false ∧ 1 ≤ ((at_ 0x41).req.extractLsb' 0 3).toNat ∧
      8 ≤ ((at_ 0x41).req.extractLsb' 3 4).toNat ∧ ((at_ 0x7C).req.extractLsb' 0 3).toNat ≤ 4 ∧
      8 ≤ ((at_ 0x7C).req.extractLsb' 3 4).toNat := by decide

/-- Two different requests for each mask of `DontCareBitsNeverReachTheResponse`. -/
theorem witness_DontCareBits :
    (0x0100000000000118#64 &&& 0xFF#64 = 0x18#64 &&& 0xFF#64) ∧
      (0xFF00000000000109#64 &&& 0xFEFF#64 = 0x09#64 &&& 0xFEFF#64) ∧
      (0xFF0000000000C00A#64 &&& 0x3FFF#64 = 0x0A#64 &&& 0x3FFF#64) ∧
      (0xFF000000F080081B#64 &&& 0x0F7FF7FF#64 = 0x1B#64 &&& 0x0F7FF7FF#64) ∧
      (0xFF00000000800034#64 &&& 0x00FFFFFFFFFFFFFF#64 = 0x800034#64 &&& 0x00FFFFFFFFFFFFFF#64) ∧
      response (State.reset.present 0xFF0B) = some 0x1B ∧ (0x1B#64).getLsbD 0 = true ∧
      (0xFF0B#64 &&& 0xFF#64 = 0x0B#64 &&& 0xFF#64) := by decide

theorem witness_CompleteReads :
    lookup GroupName.mag.index = some ⟨0x04, 7, some .dsmp, false⟩ ∧
      lookup GroupName.pmuStatus.index = some ⟨0x03, 1, some .dpmu, false⟩ := by decide

/-- The three cases of `SampleReadsReportTheDeviceWords`, at an image that holds its own addresses: the request made of
each read, and the answer to the seven bytes of MAG. -/
theorem witness_SampleReads :
    (GroupName.mag = .mag ∧ 0x04 = 0x04) ∧ (GroupName.gyr = .gyr ∧ 0x0C = 0x0C) ∧ (GroupName.acc = .acc ∧ 0x12 = 0x12) ∧
      pollRequest .mag (.ok (readGroup (BitVec.ofNat 8) .mag)) = some 0x0A0908070605043C ∧
      pollRequest .gyr (.ok (readGroup (BitVec.ofNat 8) .gyr)) = some 0x0011100F0E0D0C34 ∧
      pollRequest .acc (.ok (readGroup (BitVec.ofNat 8) .acc)) = some 0x0017161514131234 ∧
      response (at_ 0x0A0908070605043C) = some 0x0908070605040020 := by decide

/-- A value and an error that `OnlyResponseWordsAreRead` speaks of. -/
theorem witness_OnlyResponseWords :
    readReply 0x0000000000010008 = some (.ok (.status ⟨true, false, false, false, false, false, false⟩)) ∧
      readReply 0x000000000000000B = some (.err 1 .errLen) := by decide

theorem witness_SignedReading :
    (0x7FFF#16).toNat ≤ 32767 ∧ 32768 ≤ (0x8000#16).toNat ∧ sint16 0x7FFF = 32767 ∧ sint16 0x8000 = -32768 := by decide

end Sys2Proof.Tests
end

section
/-! The scope (00_scope.md): a step runs the decoded instruction, its response is a function of the request, and a
caller reads the response back. -/

namespace Sys2Proof.Proofs

open Sys2Proof.Machine Sys2Proof.Laws

/-! ### The decoder -/

/-- A decoded instruction is of the operation its request names. -/
theorem opCode_op_of_decode {q : Word} {i : Instr} (h : decode q = .ok i) : opCode i.op = reqOp q := by
  obtain ⟨_, o, ho, rfl⟩ := (decode_ok_iff q i).mp h
  rw [Instr.op_ofFields]
  exact opCode_of_opOfCode _ _ ho

/-- The `arg` of a well-formed instruction survives its four bits (30_encoding.md R60, R61). -/
theorem toNat_ofNat_arg {i : Instr} (h : i.wellFormed = true) : (BitVec.ofNat 4 i.arg).toNat = i.arg :=
  (BitVec.toNat_ofNat i.arg 4).trans (Nat.mod_eq_of_lt ((Instr.wellFormed_iff i).mp h))

/-- No field of a request is dropped: each accessor gives the field that was packed (30_encoding.md R60, R70). -/
theorem decode_encode {i : Instr} (h : i.wellFormed = true) : decode (encode i) = .ok i := by
  refine (decode_ok_iff _ _).mpr ⟨reqRsv_packRequest .., i.op, ?_, ?_⟩
  · rw [encode, reqOp_packRequest, opOfCode_opCode]
  · rw [encode, reqArg_packRequest, reqBuf_packRequest, toNat_ofNat_arg h, Instr.ofFields_eta]

/-! ### The response -/

/-- The response words of `kind`: a success, or an error of one of the three causes (60_exceptions.md R140, R141). -/
def IsResponse (kind : BitVec 3) (r : Word) : Prop :=
  IsSuccess kind r ∨ IsError kind 1 r ∨ IsError kind 2 r ∨ IsError kind 3 r

theorem isResponse_errorResponse (kind : BitVec 3) (c : Cause) : IsResponse kind (errorResponse kind c) := by
  have h := errorResponse_isError kind c
  cases c with
  | errLen => exact .inr (.inl h)
  | errOp => exact .inr (.inr (.inl h))
  | errGrp => exact .inr (.inr (.inr h))

/-- To each request there is one response word that every step on it drives onto `RSP`, whatever the state holds
besides, and it is a response that echoes the request's `op`. -/
theorem exists_response (q : Word) :
    ∃ r, (∀ s : State, s.req = q → step s = .next (s.respond r)) ∧ IsResponse (reqOp q) r := by
  rcases step_cases q with ⟨i, v, hdec, _, hstep⟩ | ⟨c, hstep⟩
  · exact ⟨_, hstep, .inl (opCode_op_of_decode hdec ▸ successResponse_isSuccess i.op v.payload)⟩
  · exact ⟨_, hstep, isResponse_errorResponse (reqOp q) c⟩

/-! ### Reading a payload back -/

/-- The format that a value's own operation selects reads its payload back as the value (30_encoding.md R63 to R68). -/
theorem Value.ofPayload_payload (v : Value) : Value.ofPayload (opCode v.op) v.payload = some v := by
  rw [Value.ofPayload, opOfCode_opCode]
  cases v with
  | mapEntry e => exact congrArg (Option.map Value.mapEntry) (MapEntry.ofPayload_payload e)
  | status v => exact congrArg (some ∘ Value.status) (Status.ofPayload_payload v)
  | powerMode v => exact congrArg (Option.map Value.powerMode) (PowerMode.ofPayload_payload v)
  | interrupts v => exact congrArg (some ∘ Value.interrupts) (Interrupts.ofPayload_payload v)
  | sample v => exact congrArg (some ∘ Value.sample) (SensorSample.ofPayload_payload v)

/-! ### The obligations -/

/-- Settles O8: the function is the choice of `exists_response` for each request. -/
theorem responseIsATotalFunctionOfTheRequest : Obligations.ResponseIsATotalFunctionOfTheRequest := by
  choose f hstep hform using exists_response
  exact ⟨f, fun s => hstep s.req s rfl, hform⟩

/-- Settles O38: each payload format reads its own value back, and each cause its own code. -/
theorem responsesReadBackAsTheirValue : Obligations.ResponsesReadBackAsTheirValue :=
  ⟨fun v => readReply_successResponse v (Value.ofPayload_payload v), readReply_errorResponse⟩

/-- Settles O7: the second half is the first at an encoded request, which decodes to its instruction. -/
theorem stepRunsTheDecodedInstruction : Obligations.StepRunsTheDecodedInstruction :=
  ⟨fun _ _ => step_of_ok, fun s i h => step_of_ok (s := s.present (encode i)) (decode_encode h)⟩

end Sys2Proof.Proofs
end

section
/-! The register map (10_state.md R25, R26) and the requests a caller makes of it (40_register_map.md R91). -/

namespace Sys2Proof.Proofs

open Sys2Proof.Machine Sys2Proof.Laws

/-! ### The caller's request of a read -/

/-- The bytes of a read go to the decoder bound to the group (R91, R166). -/
theorem pollRequest_of_decoder {g : GroupName} {d : Decoder} (h : (lookup g.index).bind MapEntry.dec = some d)
    (bytes : List Byte) : pollRequest g (.ok bytes) = some (encode (decodeRequest d bytes)) := by
  simp [pollRequest, h]

/-- A group without a decoder is never asked about (10_state.md R31). -/
theorem pollRequest_of_no_decoder {g : GroupName} (h : (lookup g.index).bind MapEntry.dec = none)
    (bytes : List Byte) : pollRequest g (.ok bytes) = none := by
  simp [pollRequest, h]

/-- A failed read leaves the caller without a buffer (60_exceptions.md R148). -/
theorem pollRequest_of_failed_read (g : GroupName) (e : TransportError) : pollRequest g (.error e) = none := by
  simp [pollRequest]

/-! ### The obligations -/

/-- Settles O25: the table is the list of its rows, and each name is looked up at its own index. -/
theorem mapHoldsTheTenGroups : Obligations.MapHoldsTheTenGroups := by
  refine ⟨rfl, fun g => ?_⟩
  cases g <;> rfl

/-- Settles O26: the map is a closed table, so each clause is checked on its ten rows; row 9 (CMD) ends at 0x7E. -/
theorem mapRangesAreDisjoint : Obligations.MapRangesAreDisjoint :=
  ⟨by decide, by decide, by decide, 9, by decide⟩

/-- Settles O27: decoder by decoder, over the rows that are bound to it. -/
theorem mapSpansMeetTheNeeds : Obligations.MapSpansMeetTheNeeds := by
  intro g d
  revert g
  cases d with
  | dstat => decide
  | dpmu => decide
  | dint => decide
  | dsmp => decide

/-- Settles O40: the four groups of the second half have no decoder in the map. -/
theorem noRequestWithoutABufferAndADecoder : Obligations.NoRequestWithoutABufferAndADecoder := by
  refine ⟨pollRequest_of_failed_read, fun g bytes hg => pollRequest_of_no_decoder ?_ bytes⟩
  rcases hg with rfl | rfl | rfl | rfl <;> rfl

end Sys2Proof.Proofs
end

section
/-! The state (10_state.md R20 to R24): an instruction drives `RSP` and nothing else, and a step drives it with
`rbd` of `REQ`. -/

namespace Sys2Proof.Proofs

open Sys2Proof.Machine Sys2Proof.Laws

/-! ### What the four decoders have in common -/

/-- The typed value that decoder `d` makes of a buffer that is long enough. -/
def decodedValue (d : Decoder) (buf : Buffer) : Value :=
  match d with
  | .dstat => .status (statusFlags buf[0])
  | .dpmu => .powerMode (powerMode buf[0])
  | .dint => .interrupts (interruptFlags buf[0] buf[1] buf[2])
  | .dsmp => .sample (sensorSample buf)

/-- Every decoder is one length check and then its typed value (20_memory.md R48). -/
theorem exec_decoder (d : Decoder) (len : Nat) (buf : Buffer) (s : State) :
    exec (Instr.ofFields d.op len buf) s =
      guardLen d len s (succeed d.op (decodedValue d buf).payload s) := by
  cases d <;> rfl

/-- The wire form of each decoder's payload (R100, R110, R120, R130). -/
def wireDecoded (d : Decoder) (q : Word) : Payload :=
  match d with
  | .dstat => wireStatus q
  | .dpmu => wirePower q
  | .dint => wireInterrupts q
  | .dsmp => wireSample q

theorem decodedValue_payload_eq_wire (d : Decoder) (q : Word) :
    (decodedValue d (reqBuf q)).payload = wireDecoded d q := by
  cases d with
  | dstat => exact statusPayload_eq_wire q
  | dpmu => exact powerPayload_eq_wire q
  | dint => exact interruptPayload_eq_wire q
  | dsmp => exact samplePayload_eq_wire q

/-- An operation is MAPRD or one of the four decoders (30_encoding.md R70). -/
theorem op_cases (o : Op) : o = .maprd ∨ ∃ d : Decoder, o = d.op := by
  cases o with
  | maprd => exact .inl rfl
  | dstat => exact .inr ⟨.dstat, rfl⟩
  | dpmu => exact .inr ⟨.dpmu, rfl⟩
  | dint => exact .inr ⟨.dint, rfl⟩
  | dsmp => exact .inr ⟨.dsmp, rfl⟩

/-! ### The branches of `rbd` -/

theorem reqRsv_eq_one_iff (q : Word) : reqRsv q = 1 ↔ q.getLsbD 7 = true := by
  have hbit : reqRsv q = BitVec.ofBool (q.getLsbD 7) := by
    ext i h
    obtain rfl : i = 0 := by omega
    simp [reqRsv]
  rw [hbit]
  cases q.getLsbD 7 <;> decide

/-- What `decode` refuses, `rbd` answers with ERR_OP, before anything else (60_exceptions.md R144). -/
theorem rbd_of_error {q : Word} {e : DecodeError} (h : decode q = .error e) :
    rbd q = errorResponse (reqOp q) .errOp := by
  have hop : ∀ c : BitVec 3, opOfCode c = none → 4 < c.toNat := by decide
  have hb : q.getLsbD 7 = true ∨ 4 < (reqOp q).toNat := by
    rcases (decode_error_iff q e).mp h with ⟨hr, -⟩ | ⟨-, ho, -⟩
    · exact .inl ((reqRsv_eq_one_iff q).mp hr)
    · exact .inr (hop _ ho)
  exact if_pos hb

section Accepted

variable {q : Word} (hrsv : reqRsv q = 0)
include hrsv

/-- The ERR_OP branch is not taken for the code of an operation. -/
theorem not_refused_of_op {o : Op} (hop : reqOp q = opCode o) : ¬ (q.getLsbD 7 = true ∨ 4 < (reqOp q).toNat) := by
  have hcode : (opCode o).toNat ≤ 4 := by cases o <;> decide
  rintro (h | h)
  · exact absurd (hrsv.symm.trans ((reqRsv_eq_one_iff q).mpr h)) (by decide)
  · rw [hop] at h
    omega

theorem rbd_of_maprd (hop : reqOp q = opCode .maprd) :
    rbd q = if 9 < (reqArg q).toNat then errorResponse (opCode .maprd) .errGrp
      else successResponse .maprd (wireMap.getD (reqArg q).toNat 0) := by
  have hbody : rbd q = _ := if_neg (not_refused_of_op hrsv hop)
  rw [hbody, show q.extractLsb' 0 3 = opCode .maprd from hop]
  rfl

theorem rbd_of_decoder {d : Decoder} (hop : reqOp q = opCode d.op) :
    rbd q = if (reqArg q).toNat < need d then errorResponse (opCode d.op) .errLen
      else successResponse d.op (wireDecoded d q) := by
  have hbody : rbd q = _ := if_neg (not_refused_of_op hrsv hop)
  rw [hbody, show q.extractLsb' 0 3 = opCode d.op from hop]
  cases d <;> rfl

end Accepted

/-! ### A step drives `RSP` with `rbd` -/

/-- MAPRD answers with the row of R90 for its group, or ERR_GRP. -/
theorem exec_maprd_eq_wire (grp : Nat) (lanes : Buffer) (s : State) :
    exec (.maprd grp lanes) s = .next (s.respond (if 9 < grp then errorResponse (opCode .maprd) .errGrp
      else successResponse .maprd (wireMap.getD grp 0))) := by
  split
  · exact execMaprd_of_ge grp s (by omega)
  · have hg : grp < 10 := by omega
    rw [← mapPayload_eq_wire grp hg]
    exact execMaprd_of_lt grp s hg

theorem exec_decoder_eq_wire (d : Decoder) (len : Nat) (q : Word) (s : State) :
    exec (Instr.ofFields d.op len (reqBuf q)) s = .next (s.respond (
      if len < need d then errorResponse (opCode d.op) .errLen else successResponse d.op (wireDecoded d q))) := by
  rw [exec_decoder, decodedValue_payload_eq_wire]
  split
  · exact guardLen_short ‹_› s _
  · rw [guardLen_enough (by omega), succeed_eq]

/-- The decoder, the dispatch and the typed meanings compute the top-level function (60_exceptions.md R144). -/
theorem step_eq_respond_rbd (s : State) : step s = .next (s.respond (rbd s.req)) := by
  cases h : decode s.req with
  | error e => rw [step_of_error h, rbd_of_error h]
  | ok i =>
    obtain ⟨hrsv, o, ho, rfl⟩ := (decode_ok_iff s.req i).mp h
    have hop := (opCode_of_opOfCode _ _ ho).symm
    rw [step_of_ok h]
    rcases op_cases o with rfl | ⟨d, rfl⟩
    · rw [rbd_of_maprd hrsv hop]
      exact exec_maprd_eq_wire _ _ s
    · rw [rbd_of_decoder hrsv hop]
      exact exec_decoder_eq_wire d _ s.req s

/-- To each instruction there is one response word that it drives onto `RSP`, in every state (R22, R23). -/
theorem exists_exec_response (i : Instr) : ∃ r, ∀ s : State, exec i s = .next (s.respond r) := by
  rcases exec_cases i with ⟨_, -, hexec⟩ | ⟨_, hexec⟩
  · exact ⟨_, hexec⟩
  · exact ⟨_, hexec⟩

/-! ### The obligations -/

/-- Settles O10: `rbd` reads `REQ` alone, which a step keeps, so a second step drives the same value. -/
theorem everyStepSettlesThePorts : Obligations.EveryStepSettlesThePorts := by
  intro s s' h
  obtain rfl : s.respond (rbd s.req) = s' := Host.Outcome.next.inj ((step_eq_respond_rbd s).symm.trans h)
  exact ⟨rfl, step_eq_respond_rbd (s.respond (rbd s.req))⟩

/-- Settles O17: the response word of an instruction is chosen before the state, so only `RSP` differs. -/
theorem instructionsChangeOnlyTheResponsePort : Obligations.InstructionsChangeOnlyTheResponsePort := by
  intro i s t h
  obtain ⟨r, hexec⟩ := exists_exec_response i
  obtain rfl : s.respond r = t := Host.Outcome.next.inj ((hexec s).symm.trans h)
  exact ⟨rfl, hexec⟩

end Sys2Proof.Proofs
end

section
/-! Reads of the device (20_memory.md R43, 40_register_map.md R91): the bytes of a complete read, presented to the block,
and the answer. -/

namespace Sys2Proof.Proofs

open Sys2Proof.Machine Sys2Proof.Laws

/-! ### The bytes of a read -/

theorem canonicalBuffer_getElem (bytes : List Byte) (k : Nat) (hk : k < 7) :
    (canonicalBuffer bytes)[k] = bytes.getD k 0 := by
  interval_cases k <;> rfl

@[simp] theorem memRead_length (dev : Nat → Byte) (base : Byte) (n : Nat) : (memRead dev base n).length = n := by
  simp [memRead]

theorem memRead_getD (dev : Nat → Byte) (base : Byte) {n k : Nat} (hk : k < n) :
    (memRead dev base n).getD k 0 = dev (base.toNat + k) := by
  simp [memRead, hk]

/-- Lane `k` of a complete read is the device's register at the group's base plus `k` (R60, R77). -/
theorem readLane_eq {g : GroupName} {e : MapEntry} (hg : lookup g.index = some e) (dev : Nat → Byte) {k : Nat}
    (hk : k < 7) (hspan : k < e.span.toNat) :
    (canonicalBuffer (readGroup dev g))[k] = dev (e.base.toNat + k) := by
  rw [canonicalBuffer_getElem _ k hk, readGroup, hg]
  exact memRead_getD dev e.base hspan

/-! ### The answer to a read -/

theorem decodeRequest_wellFormed (d : Decoder) (bytes : List Byte) : (decodeRequest d bytes).wellFormed = true := by
  rw [Instr.wellFormed_iff, decodeRequest, Instr.arg_ofFields]
  omega

/-- A buffer of at least `NEED` bytes is answered with its typed value. -/
theorem step_decodeRequest {d : Decoder} {bytes : List Byte} (h : need d ≤ bytes.length) (s : State) :
    step (s.present (encode (decodeRequest d bytes))) =
      .next ((s.present (encode (decodeRequest d bytes))).respond
        (successResponse d.op (decodedValue d (canonicalBuffer bytes)).payload)) := by
  have hneed : need d ≤ 15 := by cases d <;> decide
  have hdec := decode_encode (decodeRequest_wellFormed d bytes)
  rw [step_of_ok (s := s.present (encode (decodeRequest d bytes))) hdec]
  generalize s.present (encode (decodeRequest d bytes)) = s'
  rw [decodeRequest, exec_decoder, guardLen_enough (by omega), succeed_eq]

/-- The span of a group with a decoder is enough for that decoder (O27; 70_reset_and_hazards.md R167). -/
theorem need_le_span {g : GroupName} {e : MapEntry} {d : Decoder} (hg : lookup g.index = some e)
    (hd : e.dec = some d) : need d ≤ e.span.toNat := by
  have hlt : g.index < 10 := by cases g <;> decide
  rw [lookup_of_lt _ hlt] at hg
  obtain rfl := Option.some.inj hg
  have h := mapSpansMeetTheNeeds ⟨g.index, hlt⟩ d hd
  simp only [Fin.getElem_fin] at h
  split at h <;> omega

/-- One complete read of a group with a decoder is answered with that decoder's value of the bytes read. -/
theorem poll_answers {g : GroupName} {e : MapEntry} {d : Decoder} (hg : lookup g.index = some e)
    (hd : e.dec = some d) (dev : Nat → Byte) (s : State) :
    ∃ q t, pollRequest g (.ok (readGroup dev g)) = some q ∧ step (s.present q) = .next t ∧
      t.rsp = successResponse d.op (decodedValue d (canonicalBuffer (readGroup dev g))).payload := by
  have hlen : need d ≤ (readGroup dev g).length := by
    rw [readGroup, hg]
    simpa using need_le_span hg hd
  exact ⟨_, _, pollRequest_of_decoder (by rw [hg]; exact hd) _, step_decodeRequest hlen s, rfl⟩

/-! ### The payload fields of each value -/

/-- A field of a payload of flags, flag by flag. -/
theorem flagsPayload_field (flags : List Bool) {k w : Nat} (hk : k + w ≤ 48) (x : BitVec w)
    (h : ∀ i, i < w → flags.getD (k + i) false = x.getLsbD i) : (flagsPayload flags).extractLsb' k w = x := by
  ext i hi
  rw [BitVec.getElem_extractLsb', getLsbD_flagsPayload _ _ (by omega), h i hi, BitVec.getLsbD_eq_getElem hi]

/-- `P[k] = b[7-k]` (41_status_decoder.md R100). -/
theorem statusPayload_bit (b : Byte) {k : Nat} (hk : k < 7) :
    (statusFlags b).payload.getLsbD k = b.getLsbD (7 - k) := by
  rw [Status.payload, getLsbD_flagsPayload _ _ (by omega)]
  interval_cases k <;> rfl

/-- The wire form of an accelerometer or magnetometer code (42_power_mode_decoder.md R110). -/
theorem accMagMode_code (c : BitVec 2) : (accMagMode c).code = if c = 3 then 1#2 else c := by
  revert c; decide

theorem gyrMode_code (c : BitVec 2) : (gyrMode c).code = c := by
  revert c; decide

theorem fallbackFlag_iff (c : BitVec 2) : fallbackFlag c = true ↔ c = 3 := beq_iff_eq

/-- The vectors of DINT, and no flag above `P[17]` (43_interrupt_decoder.md R120). -/
theorem interruptPayload_fields (b0 b1 b2 : Byte) :
    (interruptFlags b0 b1 b2).payload.extractLsb' 0 3 = b0.extractLsb' 0 3 ∧
    (interruptFlags b0 b1 b2).payload.extractLsb' 3 4 = b0.extractLsb' 4 4 ∧
    (interruptFlags b0 b1 b2).payload.extractLsb' 7 7 = b1.extractLsb' 0 7 ∧
    (interruptFlags b0 b1 b2).payload.extractLsb' 14 4 = b2.extractLsb' 0 4 ∧
    (interruptFlags b0 b1 b2).payload.extractLsb' 18 30 = 0 := by
  refine ⟨flagsPayload_field _ (by omega) _ ?_, flagsPayload_field _ (by omega) _ ?_,
    flagsPayload_field _ (by omega) _ ?_, flagsPayload_field _ (by omega) _ ?_,
    flagsPayload_field _ (by omega) _ ?above⟩
  case above =>
    intro i _
    rw [List.getD_eq_default]
    · simp
    · exact Nat.le_add_right 18 i
  all_goals
    intro i hi
    interval_cases i <;> simp [interruptFlags, Interrupts.flags]

/-! ### The obligations -/

/-- Settles O41: lane 0 of a read of STATUS is register 0x1B, which DSTAT decodes. -/
theorem statusReadReportsDeviceRegister1B : Obligations.StatusReadReportsDeviceRegister1B := by
  intro dev s
  have hrow : lookup GroupName.status.index = some ⟨0x1B, 1, some .dstat, false⟩ := rfl
  obtain ⟨q, t, hq, hstep, hrsp⟩ := poll_answers hrow rfl dev s
  refine ⟨q, t, hq, hstep, hrsp ▸ successResponse_isSuccess .dstat _, fun k hk => ?_⟩
  have hlane : (canonicalBuffer (readGroup dev .status))[0] = dev 0x1B :=
    readLane_eq hrow dev (k := 0) (by omega) (by decide)
  rw [hrsp, successResponse, payloadBit_packResponse, ← hlane]
  exact statusPayload_bit _ hk

/-- Settles O42: lane 0 of a read of PMU_STATUS is register 0x03; the caller reads back what DPMU made of it. -/
theorem powerReadReportsDeviceRegister03 : Obligations.PowerReadReportsDeviceRegister03 := by
  intro dev s
  have hrow : lookup GroupName.pmuStatus.index = some ⟨0x03, 1, some .dpmu, false⟩ := rfl
  obtain ⟨q, t, hq, hstep, hrsp⟩ := poll_answers hrow rfl dev s
  have hlane : (canonicalBuffer (readGroup dev .pmuStatus))[0] = dev 0x03 :=
    readLane_eq hrow dev (k := 0) (by omega) (by decide)
  simp only [decodedValue, hlane] at hrsp
  refine ⟨q, t, powerMode (dev 0x03), hq, hstep, hrsp ▸ successResponse_isSuccess .dpmu _, ?_,
    accMagMode_code _, gyrMode_code _, accMagMode_code _, fallbackFlag_iff _, fallbackFlag_iff _⟩
  rw [hrsp]
  exact readReply_successResponse (.powerMode _) (Value.ofPayload_payload _)

/-- Settles O43: the three lanes of a read of INT_EN are registers 0x50 to 0x52, whose fields DINT places. -/
theorem interruptReadReportsDeviceRegisters50To52 : Obligations.InterruptReadReportsDeviceRegisters50To52 := by
  intro dev s
  have hrow : lookup GroupName.intEn.index = some ⟨0x50, 3, some .dint, false⟩ := rfl
  obtain ⟨q, t, hq, hstep, hrsp⟩ := poll_answers hrow rfl dev s
  have hlane0 : (canonicalBuffer (readGroup dev .intEn))[0] = dev 0x50 :=
    readLane_eq hrow dev (k := 0) (by omega) (by decide)
  have hlane1 : (canonicalBuffer (readGroup dev .intEn))[1] = dev 0x51 :=
    readLane_eq hrow dev (k := 1) (by omega) (by decide)
  have hlane2 : (canonicalBuffer (readGroup dev .intEn))[2] = dev 0x52 :=
    readLane_eq hrow dev (k := 2) (by omega) (by decide)
  simp only [decodedValue, hlane0, hlane1, hlane2] at hrsp
  have hfield : ∀ k w, t.rsp.extractLsb' (16 + k) w =
      (interruptFlags (dev 0x50) (dev 0x51) (dev 0x52)).payload.extractLsb' k w :=
    fun k w => hrsp ▸ payloadField_packResponse _ _ _ _ k w
  obtain ⟨h0low, h0high, h1, h2, hzero⟩ := interruptPayload_fields (dev 0x50) (dev 0x51) (dev 0x52)
  exact ⟨q, t, hq, hstep, hrsp ▸ successResponse_isSuccess .dint _, (hfield 0 3).trans h0low,
    (hfield 3 4).trans h0high, (hfield 7 7).trans h1, (hfield 14 4).trans h2, (hfield 18 30).trans hzero⟩

/-- Byte `i` of the answer to a complete read of a group bound to DSMP is the register at its base plus `i`. -/
theorem sampleRead_bytes {g : GroupName} {e : MapEntry} (hg : lookup g.index = some e) (hd : e.dec = some .dsmp)
    (dev : Nat → Byte) (s : State) :
    ∃ q t, pollRequest g (.ok (readGroup dev g)) = some q ∧ step (s.present q) = .next t ∧ IsSuccess 4 t.rsp ∧
      ∀ i, i < 6 → t.rsp.extractLsb' (8 * i + 16) 8 = dev (e.base.toNat + i) := by
  obtain ⟨q, t, hq, hstep, hrsp⟩ := poll_answers hg hd dev s
  have hspan : 6 ≤ e.span.toNat := need_le_span hg hd
  refine ⟨q, t, hq, hstep, hrsp ▸ successResponse_isSuccess .dsmp _, fun i hi => ?_⟩
  rw [hrsp, successResponse, Nat.add_comm, payloadField_packResponse,
    ← readLane_eq hg dev (by omega) (by omega : i < e.span.toNat)]
  exact samplePayload_byte _ i hi

/-- Settles O44: MAG, GYR and ACC are bound to DSMP, which does not read the seventh byte of MAG. -/
theorem sampleReadsReportTheDeviceWords : Obligations.SampleReadsReportTheDeviceWords := by
  intro dev s g base h
  rcases h with ⟨rfl, rfl⟩ | ⟨rfl, rfl⟩ | ⟨rfl, rfl⟩
  · exact sampleRead_bytes (g := .mag) rfl rfl dev s
  · exact sampleRead_bytes (g := .gyr) rfl rfl dev s
  · exact sampleRead_bytes (g := .acc) rfl rfl dev s

end Sys2Proof.Proofs
end

section
/-! Buffers and sequences of requests (20_memory.md R48 to R50, 30_encoding.md R74): which bits and bytes of a request
its response depends on, and that it depends on nothing else. -/

namespace Sys2Proof.Proofs

open Sys2Proof.Machine Sys2Proof.Laws

/-! ### Transactions one after another -/

theorem response_present (s : State) (q : Word) : response (s.present q) = some (rbd q) := by
  rw [response, step_eq_respond_rbd]
  rfl

/-- A sequence is answered request by request (20_memory.md R50). -/
theorem serve_eq_map_rbd (s : State) (qs : List Word) : serve s qs = some (qs.map rbd) := by
  induction qs generalizing s with
  | nil => rfl
  | cons q rest ih =>
    rw [serve, step_eq_respond_rbd]
    simp only [ih]
    rfl

/-- A run goes nowhere from a state that a step keeps. -/
theorem core_run_of_fixed {t : State} (h : step t = .next t) (k : Nat) : core.run k t = .next t := by
  induction k with
  | zero => rfl
  | succ k ih => exact (core_run_succ k t t h).trans ih

/-! ### The bytes a decoder reads -/

/-- The typed value of a decoder is made of its first `NEED` bytes (20_memory.md R48). -/
theorem decodedValue_congr {d : Decoder} {buf buf' : Buffer}
    (h : ∀ i (_ : i < 7), i < need d → buf[i] = buf'[i]) : decodedValue d buf = decodedValue d buf' := by
  cases d with
  | dstat => rw [decodedValue, decodedValue, h 0 (by omega) (by decide)]
  | dpmu => rw [decodedValue, decodedValue, h 0 (by omega) (by decide)]
  | dint =>
    rw [decodedValue, decodedValue, h 0 (by omega) (by decide), h 1 (by omega) (by decide),
      h 2 (by omega) (by decide)]
  | dsmp =>
    simp only [decodedValue, sensorSample, h 0 (by omega) (by decide), h 1 (by omega) (by decide),
      h 2 (by omega) (by decide), h 3 (by omega) (by decide), h 4 (by omega) (by decide), h 5 (by omega) (by decide)]

/-- A buffer that is long enough is decoded from its first `NEED` bytes, whatever its length (R48, R75). -/
theorem exec_decoder_congr (d : Decoder) {len len' : Nat} {buf buf' : Buffer} (s : State) (hlen : need d ≤ len)
    (hlen' : need d ≤ len') (hbuf : ∀ i (_ : i < 7), i < need d → buf[i] = buf'[i]) :
    exec (Instr.ofFields d.op len buf) s = exec (Instr.ofFields d.op len' buf') s := by
  rw [exec_decoder, exec_decoder, guardLen_enough hlen, guardLen_enough hlen', decodedValue_congr hbuf]

/-! ### The bits of a request that its response depends on -/

/-- Words that agree under a mask have the same fields wherever the mask is all ones. -/
theorem extractLsb'_eq_of_masked {m q q' : Word} (h : q &&& m = q' &&& m) (start w : Nat)
    (hm : m.extractLsb' start w = BitVec.allOnes w) : q.extractLsb' start w = q'.extractLsb' start w := by
  have hfield := congrArg (BitVec.extractLsb' start w) h
  rwa [BitVec.extractLsb'_and, BitVec.extractLsb'_and, hm, BitVec.and_allOnes, BitVec.and_allOnes] at hfield

/-- The control byte fixes every field below the lanes (30_encoding.md R60). -/
theorem fields_eq_of_control {q q' : Word} (h : q.extractLsb' 0 8 = q'.extractLsb' 0 8) :
    reqOp q = reqOp q' ∧ reqArg q = reqArg q' ∧ reqRsv q = reqRsv q' := by
  have hsub : ∀ start w, start + w ≤ 8 → q.extractLsb' start w = q'.extractLsb' start w := by
    intro start w hw
    ext i hi
    have hbit := congrArg (BitVec.getLsbD · (start + i)) h
    have hlt : start + i < 8 := by omega
    simpa [hlt] using hbit
  exact ⟨hsub 0 3 (by omega), hsub 3 4 (by omega), hsub 7 1 (by omega)⟩

/-- The control byte decides the response, unless it is the success of a decoder; then it decides everything but the
payload (30_encoding.md R74). -/
theorem rbd_of_same_control {q q' : Word} (h : q.extractLsb' 0 8 = q'.extractLsb' 0 8) :
    rbd q' = rbd q ∨ ∃ d : Decoder, reqOp q = opCode d.op ∧ rbd q = successResponse d.op (wireDecoded d q) ∧
      rbd q' = successResponse d.op (wireDecoded d q') := by
  obtain ⟨hop, harg, hrsv⟩ := fields_eq_of_control h
  cases hdec : decode q with
  | error e =>
    have hdec' : decode q' = .error e := by
      rw [decode_error_iff, ← hop, ← hrsv]
      exact (decode_error_iff q e).mp hdec
    rw [rbd_of_error hdec, rbd_of_error hdec', hop]
    exact .inl rfl
  | ok i =>
    obtain ⟨hrsv0, o, ho, -⟩ := (decode_ok_iff q i).mp hdec
    have hcode : reqOp q = opCode o := (opCode_of_opOfCode _ _ ho).symm
    have hrsv0' := hrsv.symm.trans hrsv0
    have hcode' := hop.symm.trans hcode
    rcases op_cases o with rfl | ⟨d, rfl⟩
    · rw [rbd_of_maprd hrsv0 hcode, rbd_of_maprd hrsv0' hcode', harg]
      exact .inl rfl
    · rw [rbd_of_decoder hrsv0 hcode, rbd_of_decoder hrsv0' hcode', ← harg]
      by_cases hlen : (reqArg q).toNat < need d
      · rw [if_pos hlen, if_pos hlen]
        exact .inl rfl
      · rw [if_neg hlen, if_neg hlen]
        exact .inr ⟨d, hcode, rfl, rfl⟩

/-- MAPRD reads no lane (R74 a). -/
theorem rbd_congr_maprd {q q' : Word} (hop : reqOp q = opCode .maprd) (h : q.extractLsb' 0 8 = q'.extractLsb' 0 8) :
    rbd q = rbd q' := by
  rcases rbd_of_same_control h with heq | ⟨d, hd, -, -⟩
  · exact heq.symm
  · have hne : opCode .maprd ≠ opCode d.op := by cases d <;> decide
    exact absurd (hop.symm.trans hd) hne

/-- Different decoders have different codes (R70). -/
theorem decoder_eq_of_opCode_eq {d d' : Decoder} (h : opCode d.op = opCode d'.op) : d = d' := by
  have hdec : decOfCode (decCode (some d)) = decOfCode (decCode (some d')) := congrArg decOfCode h
  simpa only [decOfCode_decCode, Option.some.injEq] using hdec

/-- Beside the control byte a decoder depends on the bits of its wire form alone (R74 b, d). -/
theorem rbd_congr_decoder {d : Decoder} {q q' : Word} (hop : reqOp q = opCode d.op)
    (h : q.extractLsb' 0 8 = q'.extractLsb' 0 8) (hwire : wireDecoded d q = wireDecoded d q') : rbd q = rbd q' := by
  rcases rbd_of_same_control h with heq | ⟨d', hd', hq, hq'⟩
  · exact heq.symm
  · obtain rfl := decoder_eq_of_opCode_eq (hop.symm.trans hd')
    rw [hq, hq', hwire]

/-- An error response depends on the control byte alone (R74 c). -/
theorem rbd_congr_error {q q' : Word} (herr : (rbd q).getLsbD 0 = true)
    (h : q.extractLsb' 0 8 = q'.extractLsb' 0 8) : rbd q' = rbd q := by
  rcases rbd_of_same_control h with heq | ⟨d, -, hq, -⟩
  · exact heq
  · obtain ⟨hok, -⟩ := successResponse_isSuccess d.op (wireDecoded d q)
    rw [hq, hok] at herr
    contradiction

/-- The bits of a request that can reach the response of a decoder: its control byte and the bits its flags, codes or
words are made of (30_encoding.md R74). -/
def significantMask : Decoder → Word
  | .dstat => 0xFEFF
  | .dpmu => 0x3FFF
  | .dint => 0x0F7FF7FF
  | .dsmp => 0x00FFFFFFFFFFFFFF

/-- The wire form of each decoder reads significant bits only. -/
theorem wireDecoded_congr {d : Decoder} {q q' : Word} (h : q &&& significantMask d = q' &&& significantMask d) :
    wireDecoded d q = wireDecoded d q' := by
  have hfield := extractLsb'_eq_of_masked h
  cases d with
  | dstat => simp (disch := decide) only [wireDecoded, wireStatus, hfield]
  | dpmu => simp (disch := decide) only [wireDecoded, wirePower, hfield]
  | dint => simp (disch := decide) only [wireDecoded, wireInterrupts, hfield]
  | dsmp => exact hfield 8 48 (by decide)

theorem rbd_congr_significant (d : Decoder) {q q' : Word} (hop : reqOp q = opCode d.op)
    (h : q &&& significantMask d = q' &&& significantMask d) : rbd q = rbd q' := by
  have hcontrol : (significantMask d).extractLsb' 0 8 = BitVec.allOnes 8 := by cases d <;> decide
  exact rbd_congr_decoder hop (extractLsb'_eq_of_masked h 0 8 hcontrol) (wireDecoded_congr h)

/-! ### The obligations -/

/-- Settles O15: the state after one step is kept by every further one (O10). -/
theorem repeatingATransactionChangesNothing : Obligations.RepeatingATransactionChangesNothing := by
  intro s t k h
  obtain ⟨-, hkeep⟩ := everyStepSettlesThePorts s t h
  rw [core_run_succ k s t h]
  exact core_run_of_fixed hkeep k

/-- Settles O16: a sequence is answered by mapping `rbd` over it, from any state. -/
theorem sequencesAnswerEachRequestOnItsOwn : Obligations.SequencesAnswerEachRequestOnItsOwn := by
  constructor
  · intro s before after q s' r hr
    obtain rfl : rbd q = r := Option.some.inj ((response_present s' q).symm.trans hr)
    refine ⟨_, serve_eq_map_rbd s _, ?_, ?_⟩
    · simp only [List.length_map, List.length_append, List.length_cons]
      omega
    · simp
  · intro s s' qs qs' hperm
    refine ⟨_, _, serve_eq_map_rbd s qs, serve_eq_map_rbd s' qs', ?_⟩
    rw [← List.map_prod_left_eq_zip, ← List.map_prod_left_eq_zip]
    exact hperm.map _

/-- Settles O21: the length check fails before any byte is read. -/
theorem undersizedBuffersAnswerErrLen : Obligations.UndersizedBuffersAnswerErrLen :=
  fun len buf s =>
    ⟨fun h => ⟨_, execDstat_short len buf s h, errorResponse_isError 1 .errLen⟩,
     fun h => ⟨_, execDpmu_short len buf s h, errorResponse_isError 2 .errLen⟩,
     fun h => ⟨_, execDint_short len buf s h, errorResponse_isError 3 .errLen⟩,
     fun h => ⟨_, execDsmp_short len buf s h, errorResponse_isError 4 .errLen⟩⟩

/-- Settles O35: the four decoders one by one, with `NEED` 1, 1, 3 and 6. -/
theorem longBuffersAreDecodedFromTheirFirstBytes : Obligations.LongBuffersAreDecodedFromTheirFirstBytes := by
  intro len len' buf buf' s
  have hfirst (h : buf[0] = buf'[0]) (i : Nat) (_ : i < 7) (hi : i < 1) : buf[i] = buf'[i] := by
    obtain rfl := Nat.lt_one_iff.mp hi
    exact h
  exact ⟨fun hlen hlen' h => exec_decoder_congr .dstat s hlen hlen' (hfirst h),
    fun hlen hlen' h => exec_decoder_congr .dpmu s hlen hlen' (hfirst h),
    fun hlen hlen' h => exec_decoder_congr .dint s hlen hlen' fun i _ hi => h i hi,
    fun hlen hlen' h => exec_decoder_congr .dsmp s hlen hlen' fun i _ hi => h i hi⟩

/-- Settles O37: each mask holds the control byte and every bit that the wire form of its operation reads. -/
theorem dontCareBitsNeverReachTheResponse : Obligations.DontCareBitsNeverReachTheResponse := by
  intro s q q'
  simp only [response_present, Option.some.injEq]
  have hcontrol (h : q &&& 0xFF#64 = q' &&& 0xFF#64) : q.extractLsb' 0 8 = q'.extractLsb' 0 8 :=
    extractLsb'_eq_of_masked h 0 8 (by decide)
  refine ⟨fun hop h => rbd_congr_maprd hop (hcontrol h), rbd_congr_significant .dstat,
    rbd_congr_significant .dpmu, rbd_congr_significant .dint, rbd_congr_significant .dsmp, ?_⟩
  rintro r rfl herr h
  exact rbd_congr_error herr (hcontrol h)

end Sys2Proof.Proofs
end

section
/-! The encoding of requests and responses (30_encoding.md R60 to R78): the decoder and the encoder are inverse to each
other, and every response word has the form its request calls for. -/

namespace Sys2Proof.Proofs

open Sys2Proof.Machine Sys2Proof.Laws

/-! ### The fields of a decoded word -/

theorem reqRsv_eq_zero_iff (q : Word) : reqRsv q = 0 ↔ q.getLsbD 7 = false := by
  have hbit : ∀ r : BitVec 1, r = 0 ↔ r ≠ 1 := by decide
  rw [hbit, ne_eq, reqRsv_eq_one_iff, Bool.not_eq_true]

/-- A word with its reserved bit clear and the code of an operation is an instruction of that operation (R70). -/
theorem decode_of_op {q : Word} {o : Op} (hrsv : reqRsv q = 0) (hop : reqOp q = opCode o) :
    decode q = .ok (Instr.ofFields o (reqArg q).toNat (reqBuf q)) :=
  (decode_ok_iff q _).mpr ⟨hrsv, o, by rw [hop, opOfCode_opCode], rfl⟩

section Decoded

variable {q : Word} {i : Instr} (h : decode q = .ok i)
include h

theorem reqRsv_of_decode : reqRsv q = 0 := ((decode_ok_iff q i).mp h).1

theorem arg_of_decode : i.arg = (reqArg q).toNat := by
  obtain ⟨-, o, -, rfl⟩ := (decode_ok_iff q i).mp h
  exact Instr.arg_ofFields ..

theorem lanes_of_decode : i.lanes = reqBuf q := by
  obtain ⟨-, o, -, rfl⟩ := (decode_ok_iff q i).mp h
  exact Instr.lanes_ofFields ..

theorem wellFormed_of_decode : i.wellFormed = true := by
  rw [Instr.wellFormed_iff, arg_of_decode h]
  exact (reqArg q).isLt

/-- The fields of a decoded instruction are all of its word (R60, R76). -/
theorem encode_of_decode : encode i = q := by
  rw [encode, opCode_op_of_decode h, arg_of_decode h, lanes_of_decode h, BitVec.ofNat_toNat, BitVec.setWidth_eq,
    ← reqRsv_of_decode h]
  exact packRequest_fields q

end Decoded

/-! ### Mask and match -/

/-- The masked word is the match of `o` exactly when the decoder reads an instruction of `o` (R70). -/
theorem masked_eq_selectMatch_iff (q : Word) (o : Op) :
    q &&& selectMask = selectMatch o ↔ ∃ arg lanes, decode q = .ok (Instr.ofFields o arg lanes) := by
  constructor
  · intro h
    have hmatch : selectMatch o = selectMatch o &&& selectMask := by cases o <;> decide
    have hfield := extractLsb'_eq_of_masked (h.trans hmatch)
    have hop : reqOp q = opCode o := (hfield 0 3 (by decide)).trans (by cases o <;> decide)
    have hrsv : reqRsv q = 0 := (hfield 7 1 (by decide)).trans (by cases o <;> decide)
    exact ⟨_, _, decode_of_op hrsv hop⟩
  · rintro ⟨arg, lanes, h⟩
    rw [← encode_of_decode h]
    exact (MaskMatch.of_op _ o).mpr (Instr.op_ofFields ..).symm

/-! ### The canonical encoding -/

/-- A byte that is not listed is zero (R77). -/
theorem canonicalBuffer_eq_dite (bytes : List Byte) (k : Nat) (hk : k < 7) :
    (canonicalBuffer bytes)[k] = if h : k < bytes.length then bytes[k] else 0 := by
  rw [canonicalBuffer_getElem bytes k hk]
  split
  · exact (List.getElem_eq_getD 0).symm
  · exact List.getD_eq_default _ _ (by omega)

/-- Zero lanes are zero in `REQ[63:8]` (R60). -/
theorem extractLsb'_encode_of_zero_lanes {i : Instr} (h : ∀ k (_ : k < 7), i.lanes[k] = 0) :
    (encode i).extractLsb' 8 56 = 0 := by
  ext j hj
  obtain ⟨k, b, hk, hb, rfl⟩ : ∃ k b, k < 7 ∧ b < 8 ∧ j = 8 * k + b :=
    ⟨j / 8, j % 8, by omega, by omega, by omega⟩
  have hpos : 8 + (8 * k + b) = 8 * k + 8 + b := by omega
  rw [BitVec.getElem_extractLsb', hpos, encode, getLsbD_packRequest_lane _ _ _ _ k hk b hb, h k hk]
  simp

/-! ### Requests that select no operation or no group -/

/-- A reserved bit that is set, or a code that selects nothing, is answered with ERR_OP (R71, R72). -/
theorem step_of_refused {s : State} (h : reqRsv s.req = 1 ∨ opOfCode (reqOp s.req) = none) :
    ∃ r, step s = .next { req := s.req, rsp := r } ∧ IsError (reqOp s.req) 2 r := by
  cases hdec : decode s.req with
  | error e => exact ⟨_, step_of_error hdec, errorResponse_isError _ .errOp⟩
  | ok i =>
    obtain ⟨hrsv, o, ho, -⟩ := (decode_ok_iff _ _).mp hdec
    rcases h with h | h
    · exact absurd (hrsv.symm.trans h) (by decide)
    · exact absurd (ho.symm.trans h) (Option.some_ne_none o)

/-- MAPRD of an index that names no group is answered with ERR_GRP (R73). -/
theorem exec_maprd_of_ge (grp : Nat) (lanes : Buffer) (s : State) (h : 10 ≤ grp) :
    ∃ r, exec (.maprd grp lanes) s = .next { req := s.req, rsp := r } ∧ IsError 0 3 r :=
  ⟨_, execMaprd_of_ge grp s h, errorResponse_isError 0 .errGrp⟩

/-! ### The fields of the payloads -/

open BitVec in
/-- The fields of a MAPRD payload, from the low end of the concatenation up (R68). -/
theorem mapPayload_fields (e : MapEntry) :
    e.payload.extractLsb' 0 8 = e.base ∧ e.payload.extractLsb' 8 4 = e.span ∧
    e.payload.extractLsb' 12 3 = decCode e.dec ∧ e.payload.getLsbD 15 = e.wo ∧ e.payload.extractLsb' 16 32 = 0 := by
  refine ⟨extractLsb'_append_eq_right, ?span, ?dec, ?wo, ?zero⟩
  case span =>
    rw [MapEntry.payload, extractLsb'_append_eq_of_le (by decide)]
    exact extractLsb'_append_eq_right
  case dec =>
    rw [MapEntry.payload, extractLsb'_append_eq_of_le (by decide), extractLsb'_append_eq_of_le (by decide)]
    exact extractLsb'_append_eq_right
  case wo =>
    rw [getLsbD_mapPayload]
    simp
  case zero =>
    rw [MapEntry.payload, extractLsb'_append_eq_of_le (by decide), extractLsb'_append_eq_of_le (by decide),
      extractLsb'_append_eq_of_le (by decide)]
    exact extractLsb'_append_eq_left

/-- No mode has the code 0b11 (R65). -/
theorem AccMagMode.code_ne_three (m : AccMagMode) : m.code ≠ 3 := by cases m <;> decide

open BitVec in
/-- The accelerometer and the magnetometer code of a DPMU payload (R65). -/
theorem powerPayload_codes (v : PowerMode) :
    v.payload.extractLsb' 0 2 = v.accMode.code ∧ v.payload.extractLsb' 4 2 = v.magMode.code := by
  refine ⟨extractLsb'_append_eq_right, ?_⟩
  rw [PowerMode.payload, extractLsb'_append_eq_of_le (by decide), extractLsb'_append_eq_of_le (by decide)]
  exact extractLsb'_append_eq_right

/-- A value of operation DPMU is a power mode (R11). -/
theorem exists_powerMode_of_op {v : Value} (h : v.op = .dpmu) : ∃ m, v = .powerMode m := by
  cases v with
  | powerMode m => exact ⟨m, rfl⟩
  | _ => contradiction

/-! ### The same request with `len = 7` -/

/-- The request with its `arg` field replaced by 7. -/
def withLenSeven (q : Word) : Word := (q &&& ~~~0x78#64) ||| 0x38#64

/-- Every bit outside the `arg` field is kept. -/
theorem withLenSeven_masked (q : Word) : withLenSeven q &&& ~~~0x78#64 = q &&& ~~~0x78#64 := by
  rw [withLenSeven, BitVec.and_or_distrib_right, BitVec.and_assoc, BitVec.and_self]
  simp

theorem reqOp_withLenSeven (q : Word) : reqOp (withLenSeven q) = reqOp q :=
  extractLsb'_eq_of_masked (withLenSeven_masked q) 0 3 (by decide)

theorem reqRsv_withLenSeven (q : Word) : reqRsv (withLenSeven q) = reqRsv q :=
  extractLsb'_eq_of_masked (withLenSeven_masked q) 7 1 (by decide)

theorem reqBuf_withLenSeven (q : Word) : reqBuf (withLenSeven q) = reqBuf q := by
  ext k hk : 1
  rw [reqBuf_getElem _ k hk, reqBuf_getElem _ k hk]
  exact extractLsb'_eq_of_masked (withLenSeven_masked q) _ 8 (by interval_cases k <;> decide)

theorem reqArg_withLenSeven (q : Word) : reqArg (withLenSeven q) = 7 := by
  rw [reqArg, withLenSeven, BitVec.extractLsb'_or, BitVec.extractLsb'_and]
  have hmask : (~~~0x78#64).extractLsb' 3 4 = 0#4 := by decide
  rw [hmask, BitVec.and_zero]
  decide

/-- The codes 1 to 4 are those of the decoders (R70). -/
theorem exists_decoder_of_code {c : BitVec 3} (hpos : 1 ≤ c.toNat) (hle : c.toNat ≤ 4) :
    ∃ d : Decoder, c = opCode d.op := by
  have hcode : ∀ c : BitVec 3, 1 ≤ c.toNat → c.toNat ≤ 4 → c = 1 ∨ c = 2 ∨ c = 3 ∨ c = 4 := by decide
  rcases hcode c hpos hle with h | h | h | h
  · exact ⟨.dstat, h⟩
  · exact ⟨.dpmu, h⟩
  · exact ⟨.dint, h⟩
  · exact ⟨.dsmp, h⟩

/-- A buffer that is long enough is answered with its typed value (20_memory.md R48). -/
theorem rbd_of_enough {d : Decoder} {q : Word} (hrsv : reqRsv q = 0) (hop : reqOp q = opCode d.op)
    (hlen : need d ≤ (reqArg q).toNat) : rbd q = successResponse d.op (decodedValue d (reqBuf q)).payload := by
  rw [rbd_of_decoder hrsv hop, if_neg (by omega), decodedValue_payload_eq_wire]

/-! ### The obligations -/

/-- Settles O1: each accessor gives the field that was packed. -/
theorem decodeOfEncodeIsTheInstruction : Obligations.DecodeOfEncodeIsTheInstruction :=
  fun _ => decode_encode

/-- Settles O2: a request word is made of the fields the decoder takes from it. -/
theorem encodeOfDecodeIsTheWord : Obligations.EncodeOfDecodeIsTheWord :=
  fun _ _ h => ⟨wellFormed_of_decode h, encode_of_decode h⟩

/-- Settles O3: each field is an accessor of the word, and each accessor is a run of its bits. -/
theorem decodedFieldsAreTheBitsOfTheFormat : Obligations.DecodedFieldsAreTheBitsOfTheFormat := by
  intro q i h
  refine ⟨fun j hj => ?_, ?_, (reqRsv_eq_zero_iff q).mp (reqRsv_of_decode h), fun k hk j hj => ?_⟩
  · rw [opCode_op_of_decode h]
    simp [reqOp, hj]
  · rw [arg_of_decode h, reqArg, BitVec.extractLsb'_toNat, Nat.shiftRight_eq_div_pow]
  · simp only [lanes_of_decode h, reqBuf_getElem q k hk]
    simp [reqLane, hj]

/-- Settles O4: the five operations one by one. -/
theorem maskAndMatchSelectTheOperation : Obligations.MaskAndMatchSelectTheOperation :=
  fun q => ⟨masked_eq_selectMatch_iff q .maprd, masked_eq_selectMatch_iff q .dstat,
    masked_eq_selectMatch_iff q .dpmu, masked_eq_selectMatch_iff q .dint, masked_eq_selectMatch_iff q .dsmp⟩

/-- Settles O6: the canonical instruction is well-formed, so its word decodes to it (O1). -/
theorem canonicalRequestsCarryTheirText : Obligations.CanonicalRequestsCarryTheirText := by
  refine ⟨fun d bytes hlen => ?_, fun g hg => ⟨?_, _, decode_encode (i := (TextRequest.maprd g).assemble) hg⟩⟩
  · refine ⟨_, decode_encode (decodeRequest_wellFormed d bytes), Instr.op_ofFields .., ?_, fun k hk => ?_⟩
    · rw [decodeRequest, Instr.arg_ofFields, Nat.min_eq_left hlen]
    · simp only [decodeRequest, Instr.lanes_ofFields]
      exact canonicalBuffer_eq_dite bytes k hk
  · exact extractLsb'_encode_of_zero_lanes fun k hk => canonicalBuffer_eq_dite [] k hk

/-- Settles O12: a step drives a packed success or error response, whose fields are what was packed. -/
theorem everyResponseKeepsTheFormat : Obligations.EveryResponseKeepsTheFormat := by
  intro s t h
  rcases step_cases s.req with ⟨i, v, hdec, -, hstep⟩ | ⟨c, hstep⟩
  · obtain rfl := Host.Outcome.next.inj ((hstep s rfl).symm.trans h)
    obtain ⟨herr, hcause, hkind, hzero⟩ := successResponse_isSuccess i.op v.payload
    rw [opCode_op_of_decode hdec] at hkind
    simp only [respond_rsp]
    exact ⟨hzero, hkind, iff_of_true herr hcause, fun hone => absurd (herr.symm.trans hone) (by decide)⟩
  · obtain rfl := Host.Outcome.next.inj ((hstep s rfl).symm.trans h)
    obtain ⟨herr, hcause, hkind, -⟩ := errorResponse_isError (reqOp s.req) c
    have hcode : causeCode c ≠ 0 := by cases c <;> decide
    simp only [respond_rsp]
    refine ⟨zero_packResponse .., hkind, iff_of_false (by simp [herr]) (hcause ▸ hcode), fun _ => ?_⟩
    exact payload_packResponse ..

/-- Settles O18: codes 5, 6 and 7 select nothing. -/
theorem illegalOperationCodesAnswerErrOp : Obligations.IllegalOperationCodesAnswerErrOp := by
  intro s h
  have hnone : ∀ c : BitVec 3, c = 5 ∨ c = 6 ∨ c = 7 → opOfCode c = none := by decide
  exact step_of_refused (.inr (hnone _ h))

/-- Settles O19: the reserved bit is tested before the code. -/
theorem reservedBitAnswersErrOp : Obligations.ReservedBitAnswersErrOp :=
  fun s h => step_of_refused (.inl ((reqRsv_eq_one_iff s.req).mpr h))

/-- Settles O20: the map has no entry from index 10 on. -/
theorem groupsTenToFifteenAnswerErrGrp : Obligations.GroupsTenToFifteenAnswerErrGrp := by
  refine ⟨exec_maprd_of_ge, fun s hrsv hop hgrp => ?_⟩
  rw [step_of_ok (decode_of_op (o := .maprd) ((reqRsv_eq_zero_iff s.req).mpr hrsv) hop)]
  exact exec_maprd_of_ge _ _ s hgrp

/-- Settles O24: the payload fields of the entry, 16 bits up in the response word. -/
theorem maprdReturnsTheEntryOfItsGroup : Obligations.MaprdReturnsTheEntryOfItsGroup := by
  intro grp lanes s h
  obtain ⟨hbase, hspan, hdec, hwo, hzero⟩ := mapPayload_fields (rom[grp]).entry
  have hfield := payloadField_packResponse (rom[grp]).entry.payload (opCode .maprd) 0 0
  exact ⟨_, execMaprd_of_lt grp s h, rfl, successResponse_isSuccess .maprd _, (hfield 0 8).trans hbase,
    (hfield 8 4).trans hspan, (hfield 12 3).trans hdec, (payloadBit_packResponse _ _ _ _ 15).trans hwo,
    (hfield 16 32).trans hzero⟩

/-- Settles O30: an answer to operation 2 carries the codes of two named modes, or an error's zero payload. -/
theorem fallbackCodeIsNeverProduced : Obligations.FallbackCodeIsNeverProduced := by
  intro s t h hop
  rcases step_cases s.req with ⟨i, v, hdec, hv, hstep⟩ | ⟨c, hstep⟩
  · obtain rfl := Host.Outcome.next.inj ((hstep s rfl).symm.trans h)
    have hi : i.op = .dpmu := by
      have hcode : opCode i.op = opCode .dpmu := (opCode_op_of_decode hdec).trans hop
      simpa [opOfCode_opCode] using congrArg opOfCode hcode
    obtain ⟨m, rfl⟩ := exists_powerMode_of_op (hv.trans hi)
    obtain ⟨hacc, hmag⟩ := powerPayload_codes m
    have hfield := payloadField_packResponse m.payload (opCode i.op) 0 0
    exact ⟨(hfield 0 2).trans hacc ▸ AccMagMode.code_ne_three _,
      (hfield 4 2).trans hmag ▸ AccMagMode.code_ne_three _⟩
  · obtain rfl := Host.Outcome.next.inj ((hstep s rfl).symm.trans h)
    have hfield := payloadField_packResponse errPayload (reqOp s.req) (causeCode c) 1
    exact ⟨(hfield 0 2).trans_ne (by decide), (hfield 4 2).trans_ne (by decide)⟩

/-- Settles O36: both lengths are at least `NEED`, and the two requests have the same lanes. -/
theorem lengthsEightToFifteenAreLegal : Obligations.LengthsEightToFifteenAreLegal := by
  intro s hbit hpos hle hlen
  obtain ⟨d, hop⟩ := exists_decoder_of_code hpos hle
  have hrsv := (reqRsv_eq_zero_iff s.req).mpr hbit
  have hneed : need d ≤ 7 := by cases d <;> decide
  have hrbd := rbd_of_enough hrsv hop (hneed.trans (Nat.le_of_succ_le hlen))
  have hseven : rbd (withLenSeven s.req) = rbd s.req := by
    rw [hrbd, rbd_of_enough ((reqRsv_withLenSeven _).trans hrsv) ((reqOp_withLenSeven _).trans hop)
      (by rw [reqArg_withLenSeven]; exact hneed), reqBuf_withLenSeven]
  refine ⟨rbd s.req, step_eq_respond_rbd s, ?_, (response_present s _).trans (congrArg some hseven)⟩
  rw [hrbd, hop]
  exact successResponse_isSuccess ..

/-- Settles O5: seven closed words. -/
theorem spelledOutWordsDecode : Obligations.SpelledOutWordsDecode := by
  refine ⟨?_, ?_, ?_, ?_, ?_, ?_, ?_⟩ <;> decide

/-- Settles O45: each name assembles to its operation by definition; the examples are closed words for `rbd`. -/
theorem documentFunctionNamesAreTheOperations : Obligations.DocumentFunctionNamesAreTheOperations := by
  refine ⟨fun _ => rfl, fun _ => rfl, fun _ _ _ => rfl, fun _ _ _ _ _ _ => rfl, fun s => ?_⟩
  simp only [response_present]
  decide

end Sys2Proof.Proofs
end

section
/-! The register map (40_register_map.md R90, R91): the ten results of MAPRD, and the answer to every complete read of a
group with a decoder. -/

namespace Sys2Proof.Proofs

open Sys2Proof.Machine Sys2Proof.Laws

/-- MAPRD of a group answers with the word of its row, whatever the lanes hold (R74 a, R90). -/
theorem exec_maprd_of_row {grp : Nat} (h : grp < 10) {r : Word}
    (hrow : successResponse .maprd (rom[grp]).entry.payload = r) (lanes : Buffer) (s : State) :
    exec (.maprd grp lanes) s = .next { req := s.req, rsp := r } :=
  hrow ▸ execMaprd_of_lt grp s h

/-- A request of code 0 with its reserved bit clear runs MAPRD of its `arg` (R61, R90). -/
theorem step_of_maprd_request {s : State} (hop : reqOp s.req = opCode .maprd) (hbit : s.req.getLsbD 7 = false) :
    step s = exec (.maprd (reqArg s.req).toNat (reqBuf s.req)) s :=
  step_of_ok (decode_of_op ((reqRsv_eq_zero_iff s.req).mpr hbit) hop)

/-! ### The obligations -/

/-- Settles O39: the span of the group is enough for its decoder, so the answer to the read is a value. -/
theorem completeReadsAlwaysDecode : Obligations.CompleteReadsAlwaysDecode := by
  intro dev g s e d hg hd
  obtain ⟨q, t, hq, hstep, hrsp⟩ := poll_answers hg hd dev s
  exact ⟨q, t, hq, hstep, hrsp ▸ successResponse_isSuccess d.op _⟩

/-- Settles O23: each of the ten results is the closed word of its row of the map; ERR_OP comes from the decoder,
before the lookup. -/
theorem maprdReturnsTheTenEntries : Obligations.MaprdReturnsTheTenEntries := by
  refine ⟨fun lanes s => ?rows, exec_maprd_of_ge, fun s hop hbit => ⟨_, step_of_maprd_request hop hbit⟩,
    fun s hop hbit => ?rsv, fun s => ?maprdAcc⟩
  case rows =>
    refine ⟨?_, ?_, ?_, ?_, ?_, ?_, ?_, ?_, ?_, ?_⟩ <;> exact exec_maprd_of_row (by decide) (by decide) lanes s
  case rsv => exact hop ▸ reservedBitAnswersErrOp s hbit
  case maprdAcc =>
    rw [response_present]
    decide

end Sys2Proof.Proofs
end

section
/-! The status decoder (41_status_decoder.md R100): the bits DSTAT places, the flags a caller reads back, and the
operands a decoder takes from its request word. -/

namespace Sys2Proof.Proofs

open Sys2Proof.Machine Sys2Proof.Laws

/-- A request of a decoder's code with its reserved bit clear runs that decoder on its `arg` and its byte lanes (R60,
R61). -/
theorem step_of_decoder_request (d : Decoder) {s : State} (hop : reqOp s.req = opCode d.op)
    (hbit : s.req.getLsbD 7 = false) :
    ∃ buf : Buffer, (∀ i (h : i < 7), buf[i] = s.req.extractLsb' (8 * i + 8) 8) ∧
      step s = exec (Instr.ofFields d.op (reqArg s.req).toNat buf) s :=
  ⟨reqBuf s.req, reqBuf_getElem s.req, step_of_ok (decode_of_op ((reqRsv_eq_zero_iff s.req).mpr hbit) hop)⟩

/-- The document's mask test of one bit is that bit (30_encoding.md R69). -/
theorem getLsbD_eq_mask_test (b : Byte) {k : Nat} (hk : k < 8) : b.getLsbD k = (b &&& BitVec.twoPow 8 k != 0) := by
  have hmask : BitVec.twoPow 8 k ≠ 0 := fun h => by simpa [hk] using congrArg (·.getLsbD k) h
  rw [BitVec.and_twoPow]
  cases b.getLsbD k with
  | false => rfl
  | true => exact (bne_iff_ne.mpr hmask).symm

/-- A status names no payload bit from `P[7]` on (R64, R100). -/
theorem statusPayload_above (v : Status) : v.payload.extractLsb' 7 41 = 0 :=
  flagsPayload_field v.flags (by omega) 0 fun i _ => by
    rw [List.getD_eq_default]
    · simp
    · exact Nat.le_add_right 7 i

/-- The seven flags of a status byte are the document's mask tests (R100). -/
theorem statusFlags_mask_tests (b : Byte) :
    (statusFlags b).drdyAcc = (b &&& 0x80 != 0) ∧ (statusFlags b).drdyGyr = (b &&& 0x40 != 0) ∧
    (statusFlags b).drdyMag = (b &&& 0x20 != 0) ∧ (statusFlags b).nvmRdy = (b &&& 0x10 != 0) ∧
    (statusFlags b).focRdy = (b &&& 0x08 != 0) ∧ (statusFlags b).magManOp = (b &&& 0x04 != 0) ∧
    (statusFlags b).gyrSelfTestOk = (b &&& 0x02 != 0) :=
  have hbit (k : Nat) (hk : k < 8) := getLsbD_eq_mask_test b hk
  ⟨hbit 7 (by omega), hbit 6 (by omega), hbit 5 (by omega), hbit 4 (by omega), hbit 3 (by omega), hbit 2 (by omega),
    hbit 1 (by omega)⟩

/-! ### The obligations -/

/-- Settles O28: the payload bits of the status of byte 0, 16 bits up in the response word; its flags are the mask
tests. ERR_OP comes from the decoder, before the length check. -/
theorem dstatDecodesTheStatusByte : Obligations.DstatDecodesTheStatusByte := by
  refine ⟨fun len buf s hlen => ?decoded, fun len buf s => (undersizedBuffersAnswerErrLen len buf s).1,
    fun s => step_of_decoder_request .dstat, fun s hop hbit => hop ▸ reservedBitAnswersErrOp s hbit,
    fun s => ?statusByte80⟩
  case decoded =>
    have hread := readReply_successResponse (.status (statusFlags buf[0])) (Value.ofPayload_payload _)
    have hbit (k : Nat) (hk : k < 7) := (payloadBit_packResponse _ 1 0 0 k).trans (statusPayload_bit buf[0] hk)
    have habove := (payloadField_packResponse _ 1 0 0 7 41).trans (statusPayload_above (statusFlags buf[0]))
    exact ⟨_, _, execDstat_enough len buf s hlen, rfl, successResponse_isSuccess .dstat _, hbit, habove, hread,
      statusFlags_mask_tests buf[0]⟩
  case statusByte80 =>
    rw [response_present]
    decide

end Sys2Proof.Proofs
end

section
/-! The power-mode decoder (42_power_mode_decoder.md R110): the fields DPMU places, and the rule's table of modes. -/

namespace Sys2Proof.Proofs

open Sys2Proof.Machine Sys2Proof.Laws

/-! ### The fields of the payload -/

open BitVec in
/-- The gyroscope code of a DPMU payload, its two fallback flags, and no bit from `P[8]` on (R65). -/
theorem powerPayload_gyr_fallback_above (v : PowerMode) :
    v.payload.extractLsb' 2 2 = v.gyrMode.code ∧ v.payload.getLsbD 6 = v.accFb ∧ v.payload.getLsbD 7 = v.magFb ∧
    v.payload.extractLsb' 8 40 = 0 := by
  refine ⟨?gyr, getLsbD_powerPayload v 6, getLsbD_powerPayload v 7, ?above⟩
  case gyr =>
    rw [PowerMode.payload, extractLsb'_append_eq_of_le (by decide)]
    exact extractLsb'_append_eq_right
  case above =>
    ext i _
    rw [getElem_extractLsb', getLsbD_powerPayload]
    iterate 5 rw [if_neg (by omega)]
    simp

/-- A code is 11 when both its bits are set: `P[6] = b[5] & b[4]`, `P[7] = b[1] & b[0]` (R110, decision D13). -/
theorem fallbackFlag_field2 (b : Byte) (lo : Nat) :
    fallbackFlag (field2 b lo) = (b.getLsbD (lo + 1) && b.getLsbD lo) := by
  have hbits : ∀ c : BitVec 2, fallbackFlag c = (c.getLsbD 1 && c.getLsbD 0) := by decide
  simp [hbits, field2]

/-! ### The table of modes -/

/-- The accelerometer and magnetometer column of the rule's table (R110). -/
theorem accMagMode_table (c : BitVec 2) :
    (c = 0 → accMagMode c = .suspend) ∧ (c = 1 → accMagMode c = .normal) ∧ (c = 2 → accMagMode c = .lowPower) ∧
    (c = 3 → accMagMode c = .normal) := by
  refine ⟨?_, ?_, ?_, ?_⟩ <;> (rintro rfl; rfl)

/-- The gyroscope column of the rule's table (R110). -/
theorem gyrMode_table (c : BitVec 2) :
    (c = 0 → gyrMode c = .suspend) ∧ (c = 1 → gyrMode c = .normal) ∧ (c = 2 → gyrMode c = .reserved) ∧
    (c = 3 → gyrMode c = .fastStartUp) := by
  refine ⟨?_, ?_, ?_, ?_⟩ <;> (rintro rfl; rfl)

/-! ### The obligations -/

/-- Settles O29: the payload fields of the modes of byte 0, 16 bits up in the response word; the caller reads those
modes back. ERR_OP comes from the decoder, before the length check. -/
theorem dpmuDecodesThePowerModeByte : Obligations.DpmuDecodesThePowerModeByte := by
  refine ⟨fun len buf s hlen => ?wire, ?modes, fun len buf s => (undersizedBuffersAnswerErrLen len buf s).2.1,
    fun s => step_of_decoder_request .dpmu, fun s hop hbit => hop ▸ reservedBitAnswersErrOp s hbit,
    fun s => ?powerByte15⟩
  case wire =>
    obtain ⟨hacc, hmag⟩ := powerPayload_codes (powerMode buf[0])
    obtain ⟨hgyr, haccFb, hmagFb, habove⟩ := powerPayload_gyr_fallback_above (powerMode buf[0])
    have hfield := payloadField_packResponse (powerMode buf[0]).payload 2 0 0
    have hbit := payloadBit_packResponse (powerMode buf[0]).payload 2 0 0
    exact ⟨_, execDpmu_enough len buf s hlen, rfl, successResponse_isSuccess .dpmu _,
      (hfield 0 2).trans (hacc.trans (accMagMode_code _)), (hfield 2 2).trans (hgyr.trans (gyrMode_code _)),
      (hfield 4 2).trans (hmag.trans (accMagMode_code _)),
      (hbit 6).trans (haccFb.trans (fallbackFlag_field2 buf[0] 4)),
      (hbit 7).trans (hmagFb.trans (fallbackFlag_field2 buf[0] 0)), (hfield 8 40).trans habove⟩
  case modes =>
    rintro len buf s a g m hlen rfl rfl rfl
    have hread := readReply_successResponse (.powerMode (powerMode buf[0])) (Value.ofPayload_payload _)
    obtain ⟨hacc0, hacc1, hacc2, hacc3⟩ := accMagMode_table (field2 buf[0] 4)
    obtain ⟨hgyr0, hgyr1, hgyr2, hgyr3⟩ := gyrMode_table (field2 buf[0] 2)
    obtain ⟨hmag0, hmag1, hmag2, hmag3⟩ := accMagMode_table (field2 buf[0] 0)
    exact ⟨_, _, execDpmu_enough len buf s hlen, hread, hacc0, hacc1, hacc2, hacc3, fallbackFlag_iff _,
      hgyr0, hgyr1, hgyr2, hgyr3, hmag0, hmag1, hmag2, hmag3, fallbackFlag_iff _⟩
  case powerByte15 =>
    rw [response_present]
    decide

end Sys2Proof.Proofs
end

section
/-! The interrupt decoder (43_interrupt_decoder.md R120): the vectors DINT places and the flags a caller reads back. -/

namespace Sys2Proof.Proofs

open Sys2Proof.Machine Sys2Proof.Laws

/-- Settles O31: the payload fields of the flags of bytes 0 to 2, 16 bits up in the response word; each flag the caller
reads back is, by definition, the bit the rule pairs it with. ERR_OP comes from the decoder, before the length check. -/
theorem dintDecodesTheInterruptBytes : Obligations.DintDecodesTheInterruptBytes := by
  refine ⟨fun len buf s hlen => ?decoded, fun len buf s hlen => ?short, fun s => step_of_decoder_request .dint,
    fun s hop hbit => hop ▸ reservedBitAnswersErrOp s hbit, fun s => ?anyMotionX⟩
  case decoded =>
    obtain ⟨h0low, h0high, h1, h2, habove⟩ := interruptPayload_fields buf[0] buf[1] buf[2]
    have hread := readReply_successResponse (.interrupts (interruptFlags buf[0] buf[1] buf[2]))
      (Value.ofPayload_payload _)
    have hfield := payloadField_packResponse (interruptFlags buf[0] buf[1] buf[2]).payload 3 0 0
    exact ⟨_, _, execDint_enough len buf s hlen, rfl, successResponse_isSuccess .dint _,
      (hfield 0 3).trans h0low, (hfield 3 4).trans h0high, (hfield 7 7).trans h1, (hfield 14 4).trans h2,
      (hfield 18 30).trans habove, hread,
      rfl, rfl, rfl, rfl, rfl, rfl, rfl,
      rfl, rfl, rfl, rfl, rfl, rfl, rfl,
      rfl, rfl, rfl, rfl⟩
  case short =>
    obtain ⟨-, -, hdint, -⟩ := undersizedBuffersAnswerErrLen len buf s
    exact hdint hlen
  case anyMotionX =>
    rw [response_present]
    decide

end Sys2Proof.Proofs
end

section
/-! The sensor sample decoder (44_sensor_sample_decoder.md R130 to R132): an axis word and its signed reading as
numbers, and the words DSMP places. -/

namespace Sys2Proof.Proofs

open Sys2Proof.Machine Sys2Proof.Laws

/-! ### An axis word as a number -/

/-- The pair is the concatenation of its bytes, the high one above (20_memory.md R44). -/
theorem axisWord_eq_append (low high : Byte) : axisWord low high = high ++ low := by
  apply BitVec.eq_of_getLsbD_eq
  intro k hk
  rw [getLsbD_axisWord _ _ _ hk, BitVec.getLsbD_append]

/-- Settles O33: the low byte is below 256, so the bits of the two bytes do not overlap and their OR is a sum. -/
theorem wordAssemblyIsExact : Obligations.WordAssemblyIsExact := by
  intro low high
  rw [axisWord_eq_append, BitVec.toNat_append, ← Nat.shiftLeft_add_eq_or_of_lt low.isLt, Nat.shiftLeft_eq]
  omega

/-- The signed reading is two's complement (00_scope.md R7). -/
theorem sint16_eq_toInt (u : AxisWord) : sint16 u = u.toInt := by
  rw [sint16, BitVec.toInt_eq_toNat_cond]
  split <;> split <;> omega

/-- A word is negative when its high byte is 128 or more (R130). -/
theorem sint16_axisWord (low high : Byte) :
    sint16 (axisWord low high) =
      (low.toNat + 256 * high.toNat : Int) - (if 128 ≤ high.toNat then 65536 else 0) := by
  have hlow := low.isLt
  rw [sint16, wordAssemblyIsExact]
  split <;> split <;> omega

/-- Settles O34: the reading is two's complement, whose inverse on the range is `BitVec.ofInt`. -/
theorem signedReadingIsABijection : Obligations.SignedReadingIsABijection := by
  refine ⟨fun u => ⟨fun h => if_pos (by omega), fun h => if_neg (by omega)⟩, fun u => ?range,
    fun n hlow hhigh => ⟨BitVec.ofInt 16 n, ?reading, fun u h => ?unique⟩⟩
  case range =>
    rw [sint16_eq_toInt]
    exact ⟨BitVec.le_toInt u, Int.le_of_lt_add_one BitVec.toInt_lt⟩
  case reading =>
    rw [sint16_eq_toInt]
    exact BitVec.toInt_ofInt_eq_self (by decide) hlow (by omega)
  case unique =>
    rw [← h, sint16_eq_toInt, BitVec.ofInt_toInt]

/-! ### The words DSMP places -/

/-- The axis words are the three fields of the payload (R67). -/
theorem samplePayload_words (v : SensorSample) :
    v.payload.extractLsb' 0 16 = v.x ∧ v.payload.extractLsb' 16 16 = v.y ∧ v.payload.extractLsb' 32 16 = v.z :=
  have h := SensorSample.ofPayload_payload v
  ⟨congrArg SensorSample.x h, congrArg SensorSample.y h, congrArg SensorSample.z h⟩

/-- Settles O32: the bytes and the words of the sample's payload, 16 bits up in the response word; the caller reads the
words back as numbers. ERR_OP comes from the decoder, before the length check. -/
theorem dsmpUnpacksThreeSignedWords : Obligations.DsmpUnpacksThreeSignedWords := by
  refine ⟨fun len buf s hlen => ?unpacked, fun len buf s hlen => ?short, fun s => step_of_decoder_request .dsmp,
    fun s hop hbit => hop ▸ reservedBitAnswersErrOp s hbit, fun s => ?xMinus32768⟩
  case unpacked =>
    obtain ⟨hx, hy, hz⟩ := samplePayload_words (sensorSample buf)
    have hread := readReply_successResponse (.sample (sensorSample buf)) (Value.ofPayload_payload _)
    have hfield := payloadField_packResponse (sensorSample buf).payload 4 0 0
    refine ⟨_, _, execDsmp_enough len buf s hlen, rfl, successResponse_isSuccess .dsmp _, fun i hi => ?_, hread,
      ((hfield 0 16).trans hx).symm, ((hfield 16 16).trans hy).symm, ((hfield 32 16).trans hz).symm,
      sint16_axisWord _ _, sint16_axisWord _ _, sint16_axisWord _ _⟩
    rw [Nat.add_comm]
    exact (hfield (8 * i) 8).trans (samplePayload_byte buf i hi)
  case short =>
    obtain ⟨-, -, -, hdsmp⟩ := undersizedBuffersAnswerErrLen len buf s
    exact hdsmp hlen
  case xMinus32768 =>
    rw [response_present]
    decide

end Sys2Proof.Proofs
end

section
/-! The errors (60_exceptions.md R140 to R145): the one cause a request raises, as a function of its fields, and that
the response reports exactly this cause. -/

namespace Sys2Proof.Proofs

open Sys2Proof.Machine Sys2Proof.Laws

/-! ### The cause a request raises -/

/-- The cause that an operation raises on its `arg`, none where it succeeds (R141). -/
def argCause (o : Op) (arg : Nat) : Option Cause :=
  match o with
  | .maprd => if 9 < arg then some .errGrp else none
  | .dstat => if arg < 1 then some .errLen else none
  | .dpmu => if arg < 1 then some .errLen else none
  | .dint => if arg < 3 then some .errLen else none
  | .dsmp => if arg < 6 then some .errLen else none

/-- The cause that a request raises, ERR_OP first, none where it succeeds (R144). -/
def raisedCause (q : Word) : Option Cause :=
  if q.getLsbD 7 = true then some .errOp
  else match opOfCode (reqOp q) with
    | none => some .errOp
    | some o => argCause o (reqArg q).toNat

theorem argCause_decoder (d : Decoder) (len : Nat) :
    argCause d.op len = if len < need d then some .errLen else none := by
  cases d <;> rfl

theorem argCause_ne_errOp (o : Op) (arg : Nat) : argCause o arg ≠ some .errOp := by
  cases o <;> simp [argCause]

theorem raisedCause_of_error {q : Word} {e : DecodeError} (h : decode q = .error e) :
    raisedCause q = some .errOp := by
  rcases (decode_error_iff q e).mp h with ⟨hrsv, -⟩ | ⟨-, hnone, -⟩
  · exact if_pos ((reqRsv_eq_one_iff q).mp hrsv)
  · rw [raisedCause, hnone, ite_self]

theorem raisedCause_of_op {q : Word} {o : Op} (hbit : q.getLsbD 7 = false) (ho : opOfCode (reqOp q) = some o) :
    raisedCause q = argCause o (reqArg q).toNat := by
  rw [raisedCause, hbit, ho]
  rfl

/-- ERR_OP is raised exactly by a set reserved bit and by a code that selects nothing (R71, R72). -/
theorem raisedCause_eq_errOp_iff (q : Word) :
    raisedCause q = some .errOp ↔ q.getLsbD 7 = true ∨ opOfCode (reqOp q) = none := by
  cases hbit : q.getLsbD 7 with
  | true => simp [raisedCause, hbit]
  | false =>
    cases ho : opOfCode (reqOp q) with
    | none => simp [raisedCause, ho]
    | some o => simp [raisedCause_of_op hbit ho, argCause_ne_errOp]

/-- Every other outcome is that of the selected operation on its `arg`. -/
theorem raisedCause_eq_iff_of_ne_errOp (q : Word) {x : Option Cause} (hx : x ≠ some .errOp) :
    raisedCause q = x ↔ q.getLsbD 7 = false ∧ ∃ o, reqOp q = opCode o ∧ argCause o (reqArg q).toNat = x := by
  constructor
  · intro h
    have hnot := (raisedCause_eq_errOp_iff q).not.mp (h.trans_ne hx)
    rw [not_or, Bool.not_eq_true] at hnot
    obtain ⟨hbit, hsome⟩ := hnot
    obtain ⟨o, ho⟩ := Option.ne_none_iff_exists'.mp hsome
    exact ⟨hbit, o, (opCode_of_opOfCode _ _ ho).symm, (raisedCause_of_op hbit ho).symm.trans h⟩
  · rintro ⟨hbit, o, hop, rfl⟩
    exact raisedCause_of_op hbit (by rw [hop, opOfCode_opCode])

theorem exists_op_iff (p : Op → Prop) : (∃ o, p o) ↔ p .maprd ∨ p .dstat ∨ p .dpmu ∨ p .dint ∨ p .dsmp := by
  constructor
  · rintro ⟨o, h⟩
    cases o <;> simp [h]
  · rintro (h | h | h | h | h) <;> exact ⟨_, h⟩

/-- The requests that succeed (R140). -/
theorem raisedCause_eq_none_iff (q : Word) :
    raisedCause q = none ↔ q.getLsbD 7 = false ∧
      ((reqOp q = 0 ∧ (reqArg q).toNat ≤ 9) ∨ (reqOp q = 1 ∧ 1 ≤ (reqArg q).toNat) ∨
       (reqOp q = 2 ∧ 1 ≤ (reqArg q).toNat) ∨ (reqOp q = 3 ∧ 3 ≤ (reqArg q).toNat) ∨
       (reqOp q = 4 ∧ 6 ≤ (reqArg q).toNat)) := by
  rw [raisedCause_eq_iff_of_ne_errOp q (by decide), exists_op_iff]
  simp only [argCause, opCode, ite_eq_right_iff, reduceCtorEq, imp_false, Nat.not_lt]

/-- The requests that raise ERR_GRP (R141). -/
theorem raisedCause_eq_errGrp_iff (q : Word) :
    raisedCause q = some .errGrp ↔ q.getLsbD 7 = false ∧ reqOp q = 0 ∧ 10 ≤ (reqArg q).toNat := by
  rw [raisedCause_eq_iff_of_ne_errOp q (by decide), exists_op_iff]
  simp [argCause, opCode, Nat.succ_le_iff]

/-- The requests that raise ERR_LEN (R141). -/
theorem raisedCause_eq_errLen_iff (q : Word) :
    raisedCause q = some .errLen ↔ q.getLsbD 7 = false ∧
      ((reqOp q = 1 ∧ (reqArg q).toNat = 0) ∨ (reqOp q = 2 ∧ (reqArg q).toNat = 0) ∨
       (reqOp q = 3 ∧ (reqArg q).toNat ≤ 2) ∨ (reqOp q = 4 ∧ (reqArg q).toNat ≤ 5)) := by
  rw [raisedCause_eq_iff_of_ne_errOp q (by decide), exists_op_iff]
  simp [argCause, opCode, Nat.lt_succ_iff]

/-! ### The response reports the cause -/

theorem decodedValue_op (d : Decoder) (buf : Buffer) : (decodedValue d buf).op = d.op := by cases d <;> rfl

/-- A request is answered with the error response of the cause it raises, and with the success response of a value of
its operation where it raises none (R140, R144). -/
theorem rbd_cases (q : Word) :
    (∃ v : Value, raisedCause q = none ∧ opCode v.op = reqOp q ∧ rbd q = successResponse v.op v.payload) ∨
    (∃ c, raisedCause q = some c ∧ rbd q = errorResponse (reqOp q) c) := by
  cases hdec : decode q with
  | error e => exact .inr ⟨.errOp, raisedCause_of_error hdec, rbd_of_error hdec⟩
  | ok i =>
    obtain ⟨hrsv, o, ho, -⟩ := (decode_ok_iff q i).mp hdec
    have hop : opCode o = reqOp q := opCode_of_opOfCode _ _ ho
    rw [raisedCause_of_op ((reqRsv_eq_zero_iff q).mp hrsv) ho]
    rcases op_cases o with rfl | ⟨d, rfl⟩
    · rw [rbd_of_maprd hrsv hop.symm, ← hop]
      rcases Nat.lt_or_ge (reqArg q).toNat 10 with hlt | hge
      · rw [if_neg (by omega), ← mapPayload_eq_wire _ hlt]
        exact .inl ⟨.mapEntry _, if_neg (by omega), rfl, rfl⟩
      · exact .inr ⟨.errGrp, if_pos hge, if_pos hge⟩
    · rw [argCause_decoder]
      rcases Nat.lt_or_ge (reqArg q).toNat (need d) with hlt | hge
      · exact .inr ⟨.errLen, if_pos hlt, by rw [rbd_of_decoder hrsv hop.symm, if_pos hlt, hop]⟩
      · refine .inl ⟨decodedValue d (reqBuf q), if_neg (by omega), ?_, ?_⟩
        · rw [decodedValue_op, hop]
        · rw [decodedValue_op, rbd_of_enough hrsv hop.symm hge]

/-- `cause` is the code of the cause raised, 0 for none, and `err` says whether one was (R63, R141). -/
theorem rbd_cause_err (q : Word) :
    (rbd q).extractLsb' 1 2 = (raisedCause q).elim 0 causeCode ∧ (rbd q).getLsbD 0 = (raisedCause q).isSome := by
  rcases rbd_cases q with ⟨v, hraised, -, hrbd⟩ | ⟨c, hraised, hrbd⟩
  · obtain ⟨herr, hcause, -⟩ := successResponse_isSuccess v.op v.payload
    rw [hraised, hrbd]
    exact ⟨hcause, herr⟩
  · obtain ⟨herr, hcause, -⟩ := errorResponse_isError (reqOp q) c
    rw [hraised, hrbd]
    exact ⟨hcause, herr⟩

/-- The four codes of `cause` tell the four outcomes apart (R141, decision D8). -/
theorem causeField_iff (x : Option Cause) :
    (x.elim 0 causeCode = 2 ↔ x = some .errOp) ∧ (x.elim 0 causeCode = 3 ↔ x = some .errGrp) ∧
    (x.elim 0 causeCode = 1 ↔ x = some .errLen) ∧ (x.elim 0 causeCode = 0 ↔ x.isSome = false) := by
  cases x with
  | none => decide
  | some c => cases c <;> decide

/-- A buffer of fewer than `NEED` bytes is answered with ERR_LEN, whatever the bytes (R143). -/
theorem step_decodeRequest_short {d : Decoder} {bytes : List Byte} (h : bytes.length < need d) (s : State) :
    ∃ t, step (s.present (encode (decodeRequest d bytes))) = .next t ∧ IsError (opCode d.op) 1 t.rsp ∧
      readReply t.rsp = some (.err (opCode d.op) .errLen) := by
  have hstep := step_of_ok (s := s.present (encode (decodeRequest d bytes)))
    (decode_encode (decodeRequest_wellFormed d bytes))
  generalize s.present (encode (decodeRequest d bytes)) = s' at hstep ⊢
  rw [decodeRequest, exec_decoder, guardLen_short (by omega)] at hstep
  exact ⟨_, hstep, errorResponse_isError _ .errLen, readReply_errorResponse _ .errLen⟩

/-! ### The obligations -/

/-- Settles O9: `respond` changes `RSP` only. -/
theorem stepComputesTheTopLevelFunction : Obligations.StepComputesTheTopLevelFunction :=
  step_eq_respond_rbd

/-- Settles O13: the response is `rbd` of `REQ`, which is one of the two outcomes of `rbd_cases`; it is a success
exactly where no cause is raised. -/
theorem everyTransactionHasOneOfTwoOutcomes : Obligations.EveryTransactionHasOneOfTwoOutcomes := by
  intro s
  refine ⟨_, step_eq_respond_rbd s, fun s' hreq => ?sameRequest, ?outcome, ?success⟩
  case sameRequest => rw [step_eq_respond_rbd, respond_eq, hreq, respond_eq]
  case outcome =>
    simp only [respond_rsp]
    rcases rbd_cases s.req with ⟨v, -, hop, hrbd⟩ | ⟨c, -, hrbd⟩
    · obtain ⟨herr, -⟩ := successResponse_isSuccess v.op v.payload
      rw [hrbd]
      exact .inl ⟨herr, v, readReply_successResponse v (Value.ofPayload_payload v), hop⟩
    · obtain ⟨herr, -⟩ := errorResponse_isError (reqOp s.req) c
      rw [hrbd]
      exact .inr ⟨herr, payload_packResponse .., c, readReply_errorResponse _ c⟩
  case success =>
    obtain ⟨-, herr⟩ := rbd_cause_err s.req
    rw [respond_rsp, herr, Option.isSome_eq_false_iff, Option.isNone_iff_eq_none]
    exact raisedCause_eq_none_iff s.req

/-- Settles O14: `cause` is the code of the cause raised, and each cause has its own code. -/
theorem causeCodesSayExactlyWhatIsWrong : Obligations.CauseCodesSayExactlyWhatIsWrong := by
  intro s t h
  obtain rfl := Host.Outcome.next.inj ((step_eq_respond_rbd s).symm.trans h)
  obtain ⟨hcause, herr⟩ := rbd_cause_err s.req
  obtain ⟨hop, hgrp, hlen, hnone⟩ := causeField_iff (raisedCause s.req)
  have hillegal : ∀ c : BitVec 3, opOfCode c = none ↔ c = 5 ∨ c = 6 ∨ c = 7 := by decide
  rw [respond_rsp, hcause, herr]
  exact ⟨hop.trans ((raisedCause_eq_errOp_iff s.req).trans (or_congr_right (hillegal _))),
    hgrp.trans (raisedCause_eq_errGrp_iff s.req), hlen.trans (raisedCause_eq_errLen_iff s.req), hnone⟩

/-- Settles O22: two bytes are fewer than the three of DINT, and five fewer than the six of DSMP. -/
theorem twoByteInterruptsAndFiveByteSamplesAreErrors : Obligations.TwoByteInterruptsAndFiveByteSamplesAreErrors :=
  ⟨fun s a b => step_decodeRequest_short (d := .dint) (bytes := [a, b]) (Nat.lt_succ_self 2) s,
   fun s a b c d e => step_decodeRequest_short (d := .dsmp) (bytes := [a, b, c, d, e]) (Nat.lt_succ_self 5) s⟩

end Sys2Proof.Proofs
end

section
/-! The state at power-up (70_reset_and_hazards.md R161, R162). -/

namespace Sys2Proof.Proofs

open Sys2Proof.Machine Sys2Proof.Laws

/-- Settles O11: `reset_rsp` says that the ports agree; the two values are those that `State.reset` writes out. -/
theorem portsAgreeAtReset : Obligations.PortsAgreeAtReset :=
  ⟨reset_rsp, rfl, rfl⟩

end Sys2Proof.Proofs
end

section
/-! Words that are no response (the model's choice, log entry 10). -/

namespace Sys2Proof.Proofs

open Sys2Proof.Machine Sys2Proof.Laws

/-- A word is read only as the reply whose response word it is, bit for bit. -/
theorem eq_word_of_readReply {r : Word} {x : Reply} (h : readReply r = some x) : r = x.word := by
  obtain ⟨-, hword⟩ := (readReply_eq_some_iff r x).1 h
  exact hword.symm

/-- Settles O46: `Reply.word` is the success response of a value and the error response of a cause. Of the four words,
the fields of each say a reply (0x2 and 0x40 a map entry, 0x800008 a status, 0x10003 an ERR_LEN), whose word is another. -/
theorem onlyResponseWordsAreRead : Obligations.OnlyResponseWordsAreRead := by
  refine ⟨fun r v h => ?value, fun r kind c h => ?error, ?words⟩
  case value => exact eq_word_of_readReply h
  case error => exact eq_word_of_readReply h
  case words => decide

end Sys2Proof.Proofs
end
